-- ==== Sys2Proof/Word.lean ====
section
/-! DEFINITION. The word types of the block: the byte, the 64-bit lane, the 25-lane state buffer and the 32-byte digest
(spec/00_scope.md R6, R8; spec/10_state.md R10, R16). -/

namespace Sys2Proof

/-- A byte, 8 bits (R8). -/
abbrev Byte := BitVec 8

/-- A lane, 64 bits, bit 0 the least significant (R8, R10). -/
abbrev Lane := BitVec 64

/-- The contents of the state buffer `S`: "exactly 25 lanes of 64 bits each (1600 bits total)" (R10). The size
invariant of R102 holds by this type. -/
abbrev Lanes := Vector Lane 25

/-- A digest, "exactly 32 bytes" (R16). -/
abbrev Digest := Vector Byte 32

end Sys2Proof
end

