-- ==== Sys2Proof/Syntax.lean ====
section
/-! DEFINITION. The ten operations of the block (spec/30_encoding.md R52), one constructor per row of the opcode table. -/

namespace Sys2Proof

/-- The operations of R52. The three host transactions are issued by HOST, the seven micro-operations by the sequencer
SE. A micro-operation has no explicit operand (R51): its operands are the control registers, the state buffer and, for
`absb`, the input byte. -/
inductive Instr where
  /-- `START`, H format: begin a digest computation over an input of `len` bytes (R66). `len` is an unsigned, unscaled
  byte count (R57). -/
  | start (len : Nat)
  /-- `RDST`, H format: read the phase (R68). -/
  | rdst
  /-- `RDDG`, H format: read the digest (R69). -/
  | rddg
  /-- `ABSB`, U format: absorb one input byte (R78). -/
  | absb
  /-- `PADS`, U format: XOR the padding start marker (R79). -/
  | pads
  /-- `PADE`, U format: XOR the padding end marker (R80). -/
  | pade
  /-- `PADB`, U format: XOR both markers onto one byte (R81). -/
  | padb
  /-- `SKIP`, U format: pass a position that receives nothing (R82). -/
  | skip
  /-- `PERM`, U format: invoke the permutation, then advance the window or leave absorption (R95, R96). -/
  | perm
  /-- `SQZ`, U format: copy state bytes 0 to 31 to the digest register (R115). -/
  | sqz
  deriving DecidableEq, Repr

/-- H format, so issued by HOST (R51, R52); the others are U format, issued by SE. -/
def Instr.isHost : Instr → Bool
  | .start _ => true
  | .rdst => true
  | .rddg => true
  | .absb => false
  | .pads => false
  | .pade => false
  | .padb => false
  | .skip => false
  | .perm => false
  | .sqz => false

end Sys2Proof
end

