-- ==== Sys2Proof/WellFormed.lean ====
section
/-! DEFINITION. When an operation is well-formed for a given width of the length register (spec/00_scope.md R7,
parameter `P_LENW`; spec/30_encoding.md R51). -/

namespace Sys2Proof

/-- `L < 2^P_LENW`, where `P_LENW` is bounded (R66); `none` is the model's default of an unbounded `LEN` (R7, R18). -/
def lengthFits (lenw : Option Nat) (len : Nat) : Bool :=
  match lenw with
  | none => true
  | some bits => decide (len < 2 ^ bits)

/-- The one check the formats of R51 leave: the `LEN` field of `START` has `P_LENW` bits, so it holds only a length below
`2^P_LENW`. Every other operation has no operand field. -/
def Instr.wellFormed (lenw : Option Nat) : Instr → Bool
  | .start len => lengthFits lenw len
  | .rdst => true
  | .rddg => true
  | .absb => true
  | .pads => true
  | .pade => true
  | .padb => true
  | .skip => true
  | .perm => true
  | .sqz => true

end Sys2Proof
end

