-- ==== Sys2Proof/Decode.lean ====
section
/-! DEFINITION. The operation words of spec/30_encoding.md R51 and R52, read and written. A word is a natural number, bit
0 its least significant bit: `OP` in bits 3 to 0 and, for `START` alone, `LEN` in the bits above (DESIGN CHOICE, unsafe, log entry 4). -/

namespace Sys2Proof

/-- Why a word names no operation. -/
inductive DecodeError where
  /-- `OP` is 0x0, 0x4 to 0x7 or 0xF, which "name no operation" (R58). -/
  | reservedCode (op : Nat)
  deriving DecidableEq, Repr

/-- The operation a word names (R52). Total: every word either names one operation or carries a reserved code. For a
word whose format has no `LEN` field only `OP` is looked at, as the mask 0xF of the opcode table says (log entry 4). -/
def decodeWord (w : Nat) : Except DecodeError Instr :=
  match w % 16 with
  | 0x1 => .ok (.start (w / 16))
  | 0x2 => .ok .rdst
  | 0x3 => .ok .rddg
  | 0x8 => .ok .absb
  | 0x9 => .ok .pads
  | 0xA => .ok .pade
  | 0xB => .ok .padb
  | 0xC => .ok .skip
  | 0xD => .ok .perm
  | 0xE => .ok .sqz
  | op => .error (.reservedCode op)

/-- The 4-bit operation code `OP` (R52). -/
def Instr.code : Instr → BitVec 4
  | .start _ => 0x1
  | .rdst => 0x2
  | .rddg => 0x3
  | .absb => 0x8
  | .pads => 0x9
  | .pade => 0xA
  | .padb => 0xB
  | .skip => 0xC
  | .perm => 0xD
  | .sqz => 0xE

/-- The explicit operand above `OP`: `LEN` for `START`, no bits for every other operation (R51). -/
def Instr.lenField : Instr → Nat
  | .start len => len
  | .rdst => 0
  | .rddg => 0
  | .absb => 0
  | .pads => 0
  | .pade => 0
  | .padb => 0
  | .skip => 0
  | .perm => 0
  | .sqz => 0

/-- The word of an operation: `OP` in bits 3 to 0, `LEN` from bit 4 up (R51). -/
def encodeWord (i : Instr) : Nat :=
  i.code.toNat + 16 * i.lenField

/-- The operation the opcode table's word `w` of `nbits` bits names. -/
def decodeTableWord (nbits w : Nat) : Option Instr :=
  match decodeWord (w % 2 ^ nbits) with
  | .ok i => some i
  | .error _ => none

end Sys2Proof
end

