-- ==== Sys2Proof/Machine/State.lean ====
section
/-! DEFINITION. What the machine holds: the registers of the block (spec/10_state.md R10 to R20), the input buffer bound
to the run (R21), the platform's choices (R7) and the two sides of the host interface (spec/40_host_transactions.md,
spec/20_memory.md R45, spec/70_reset_and_hazards.md R160). -/

namespace Sys2Proof.Machine

/-- `PHASE`, the phase of the engine (R17). Its 2-bit code is `Phase.code`. -/
inductive Phase where
  /-- 0: after reset, no run has started. -/
  | idle
  /-- 1: a run is in progress: padding, absorption and permutation calls. -/
  | absorb
  /-- 2: the final permutation of the run has returned. -/
  | squeeze
  /-- 3: the run is over and `D` holds the digest. -/
  | done
  deriving DecidableEq, Repr

/-- Which permutation provider the platform has connected, the value of parameter `P_PERM` (R104, R164). What each
computes is `Provider.apply`. -/
inductive Provider where
  /-- The default, Keccak-f[1600] (R105 to R112). -/
  | keccakF1600
  /-- `KeccakF(S) = S`, the instantiation of spec/95_test_vectors.md section 2.9 (X1 to X8, P8). -/
  | identity
  /-- Every lane complemented, the instantiation of spec/95_test_vectors.md X9. -/
  | complement
  /-- A provider of the platform's own, about which nothing is known but R97 to R103. -/
  | platform (n : Nat)
  deriving DecidableEq, Repr

/-- The address space `IN` (R30): the input buffer as cells, offsets strictly rising. An offset with no cell holds no
byte. -/
abbrev Memory := List Host.Cell

/-- What HOST does on its port in one step. -/
inductive HostMove where
  /-- Nothing: the engine has the step. -/
  | idle
  /-- HOST puts an H format word on the port, with the input buffer it would bind if the word is a `START` (R51, R71). It
  stays on the port until it is accepted or refused (R65, R67). -/
  | transact (word : Nat) (buffer : List Byte)
  deriving DecidableEq, Repr

/-- Why the machine stops. The block raises no exception (R140), so no fault here is one of the hardware's. -/
inductive Fault where
  /-- Raised by `ABSB` when the caller bound a buffer that has no byte at the offset to be read, a break of HOST's duty
  of R71 and R165 (a); spec/93_implementation_defined.md U7 says to be stuck on that read. SAFE: the machine stops. -/
  | inputByteMissing (off : Nat)
  deriving DecidableEq, Repr

/-- Why an operation is turned away. The first three are the `refuse` outcomes of R154: the transaction leaves the port
with the mark, no state of the block changes (R58, R70), and a step then goes on (DESIGN CHOICE, log entry 6). -/
inductive Refusal where
  /-- Raised by `RDDG` when `D` holds no digest (R70). SAFE: no value is returned. -/
  | digestNotValid
  /-- Raised by `START` with `L >= 2^P_LENW` (R66). SAFE: the length is never truncated. -/
  | lengthTooLarge
  /-- Raised on the host port by a word with a reserved or a U format code (R58). SAFE: nothing is run. -/
  | reservedOperation
  /-- Raised by a micro-operation in a control state in which the selection function does not select it, which the
  sequencer never does (R50, R53, R58). SAFE: nothing is run. -/
  | notSelected
  /-- Raised by an arm of `exec` that has no meaning yet; no arm is left so. SAFE: nothing is run. -/
  | notModelled (mnemonic : String)
  deriving DecidableEq, Repr

/-- What HOST gets back from a transaction. -/
inductive Reply where
  /-- `RDST` returned the phase, 2 bits (R68). -/
  | phase (code : BitVec 2)
  /-- `RDDG` returned the 32 bytes, `D[0]` first (R69). -/
  | digest (bytes : Digest)
  /-- The transaction was refused: the mark of R9 and R58. -/
  | refused (reason : Refusal)
  deriving DecidableEq, Repr

/-- The externally visible events of a run (R45). -/
inductive Event where
  /-- `START(L)` was accepted. -/
  | started (len : Nat)
  /-- The engine read the input byte at this offset. -/
  | inRead (off : Nat)
  /-- The engine invoked the permutation. -/
  | permCall
  /-- The digest became available. -/
  | digestReady
  deriving DecidableEq, Repr

/-- The machine. The first six fields are the state the spec gives the block (R24); the rest is what it is connected to. -/
structure State where
  /-- `S`, the state buffer: 25 lanes of 64 bits (R10). -/
  lanes : Lanes
  /-- `D`, the digest register: 32 bytes, or `none` where the spec says it "holds no value" (R16). -/
  digest : Option Digest
  /-- `PHASE` (R17). -/
  phase : Phase
  /-- `LEN`, the length of the run's input in bytes (R18). -/
  len : Nat
  /-- `W`, the index of the current window (R19). -/
  window : Nat
  /-- `I`, the position inside the window, 8 bits (R20). -/
  pos : BitVec 8
  /-- `M`, the input buffer bound to the run: the space `IN` (R21, R30, R71). -/
  input : Memory
  /-- `P_PERM`: the provider the platform has connected (R7, R104). No operation changes it. -/
  provider : Provider
  /-- `P_LENW`: the width of the length register, `none` for unbounded (R7). No operation changes it. -/
  lenw : Option Nat
  /-- The reset input at this and the coming steps, asserted where `true`; not asserted after the list's end (R160). -/
  resetLine : List Bool
  /-- What HOST does on its port at this and the coming steps; nothing after the list's end (log entry 5). -/
  host : List HostMove
  /-- What HOST has got back, oldest first (the model's record, log entry 13). -/
  replies : List Reply
  /-- The externally visible events so far, oldest first (R45; the model's record, log entry 13). -/
  events : List Event
  deriving DecidableEq, Repr

/-- The machine right after reset (R24, R160): `S` zero, `D` holding no value, `PHASE` IDLE, `LEN`, `W` and `I` zero,
no buffer bound. The platform's parameters stand at the defaults the spec names (R7; DESIGN CHOICE, unsafe, log entries 2
and 3), and HOST has issued nothing (DESIGN CHOICE, log entries 1, 5 and 13). -/
def State.reset : State where
  lanes := Vector.replicate 25 0
  digest := none
  phase := .idle
  len := 0
  window := 0
  pos := 0
  input := []
  provider := .keccakF1600
  lenw := none
  resetLine := []
  host := []
  replies := []
  events := []

end Sys2Proof.Machine
end

