-- ==== Sys2Proof/Machine/Ops.lean ====
section
/-! DEFINITION. The named operations over the state buffer, the digest, the input space and the host port. The block has
no exception, trap or interrupt (spec/60_exceptions.md R140, R143, R145), so there is no exception entry to share; what
takes its place are the two operations `State.assertReset` and `State.refuseTransaction`. -/

namespace Sys2Proof.Machine

/-! The state buffer (spec/10_state.md R10 to R15) -/

/-- Lane `S[k]` (R9, R10). The spec's `k` is 0 to 24. -/
def lane (S : Lanes) (k : Nat) : Lane :=
  S[k]?.getD 0

/-- All lanes zero, the value of `S` at reset and at the start of every run (R25). -/
def zeroLanes : Lanes :=
  Vector.replicate 25 0

/-- `SB(i)`, byte `i` of the state's byte view: "lane `i/8`, shift `(i%8)*8`, masked to the low 8 bits" (R12, R56). -/
def stateByte (S : Lanes) (i : Nat) : Byte :=
  (lane S (i / 8) >>> (8 * (i % 8))).setWidth 8

/-- A byte placed at the bits that position `i` has in its lane: `zext_64(b) << (8 * (i mod 8))` (R55). -/
def byteInLane (i : Nat) (b : Byte) : Lane :=
  b.setWidth 64 <<< (8 * (i % 8))

/-- `XORB(i, b)` (R75): XOR the byte `b` into state byte `i`. The spec's `i` is 0 to 135. -/
def xorb (S : Lanes) (i : Nat) (b : Byte) : Lanes :=
  S.setIfInBounds (i / 8) (lane S (i / 8) ^^^ byteInLane i b)

/-- The padding start marker (R6, R79). -/
def padStart : Byte := 0x01

/-- The padding end marker (R6, R80). -/
def padEnd : Byte := 0x80

/-! The digest (spec/20_memory.md R33, spec/43_squeeze.md R115) -/

/-- State bytes 0 to 31 in index order, what `SQZ` copies to `D` (R115). -/
def squeezedDigest (S : Lanes) : Digest :=
  Vector.ofFn fun j => stateByte S j.val

/-- The number whose little-endian byte string is `bs` (R34). -/
def leNat : List Byte → Nat
  | [] => 0
  | b :: bs => b.toNat + 256 * leNat bs

/-- The digest carried as one 256-bit word: `D[j]` in bits `8*j + 7` to `8*j` (R33). -/
def digestWord (d : Digest) : BitVec 256 :=
  BitVec.ofNat 256 (leNat d.toList)

/-! The input space `IN` (spec/20_memory.md R30, R31) -/

/-- Offsets strictly rising: the one form a buffer is held in. No cell repeats what an offset without a cell reads as,
because such an offset holds no byte. -/
def Memory.wf : Memory → Bool
  | [] => true
  | [_] => true
  | a :: b :: m => decide (a.1 < b.1) && Memory.wf (b :: m)

/-- `MemRead(IN, off, 1)` (R31): the byte at offset `off`, `none` where the buffer has no byte. It changes nothing. -/
def Memory.read (m : Memory) (off : Nat) : Option Byte :=
  m.lookup off

/-- The cells of a byte sequence laid out from offset `at_` up. -/
def Memory.layOut (at_ : Nat) : List Byte → Memory
  | [] => []
  | b :: bs => (at_, b) :: Memory.layOut (at_ + 1) bs

/-- The input buffer that binding the byte sequence `bs` gives: its first byte at offset 0 (R31, R71). -/
def Memory.ofBytes (bs : List Byte) : Memory :=
  Memory.layOut 0 bs

/-! The control registers (spec/10_state.md R17 to R20) -/

/-- The 2-bit encoding of `PHASE` (R17). -/
def Phase.code : Phase → BitVec 2
  | .idle => 0
  | .absorb => 1
  | .squeeze => 2
  | .done => 3

/-- `XORB(I, b)`: XOR a byte into the state at the current position (R78 to R81). -/
def State.xorAtPos (s : State) (b : Byte) : State :=
  { s with lanes := xorb s.lanes s.pos.toNat b }

/-- The common end of every position operation, `I <- I + 1` (R77). -/
def State.advancePos (s : State) : State :=
  { s with pos := s.pos + 1 }

/-- Record an externally visible event (R45). -/
def State.note (s : State) (e : Event) : State :=
  { s with events := s.events ++ [e] }

/-! The host port and the reset input (spec/40_host_transactions.md R65, spec/70_reset_and_hazards.md R160) -/

/-- The buffer offered with the word on the port: the implicit operand of `START` (R66, R71). -/
def State.offered (s : State) : List Byte :=
  match s.host with
  | .transact _ buffer :: _ => buffer
  | _ => []

/-- The transaction leaves the port, accepted or refused (R65). -/
def State.leavePort (s : State) : State :=
  { s with host := s.host.tail }

/-- The transaction returns a value to HOST and leaves the port (R68, R69). -/
def State.reply (s : State) (r : Reply) : State :=
  { s.leavePort with replies := s.replies ++ [r] }

/-- `refuse(reason)` (R9, R154): the transaction leaves the port with the mark, "no state of the block changes". -/
def State.refuseTransaction (s : State) (reason : Refusal) : State :=
  s.reply (.refused reason)

/-- Reset asserted, in any phase (R160, R162; log entry 15): the values of R24, and the input buffer released. The platform and HOST
are not part of the block and keep what they have. -/
def State.assertReset (s : State) : State :=
  { s with
    lanes := zeroLanes, digest := none, phase := .idle, len := 0, window := 0, pos := 0, input := [] }

/-- The registers as an accepted `START(L)` leaves them, the buffer `M` of exactly `L` bytes bound (R66, R71; of a
longer offer the first `L` bytes: DESIGN CHOICE, log entry 10). -/
def State.beginRun (s : State) (len : Nat) : State :=
  { s with
    lanes := zeroLanes, digest := none, len := len, window := 0, pos := 0, phase := .absorb
    input := Memory.ofBytes (s.offered.take len) }

end Sys2Proof.Machine
end

