-- ==== Sys2Proof/Machine/Operands.lean ====
section
/-! DEFINITION. The implicit operands of the operations (spec/30_encoding.md R51, R55 to R57) and the selection function
that picks the next micro-operation from them (R53). -/

namespace Sys2Proof.Machine

/-- The input offset of the current position, `136*W + I` (R20). -/
def State.offset (s : State) : Nat :=
  136 * s.window + s.pos.toNat

/-- The input byte `M[136*W + I]` that `ABSB` takes (R78). -/
def State.inputByte (s : State) : Option Byte :=
  s.input.read s.offset

/-- `Sel(PHASE, W, I, LEN)` (R53): the micro-operation SE executes next, `none` when SE has no step. A position above 136
is not one that `I` can hold in a well-formed state (R20, R23), and no rule selects an operation there
(DESIGN CHOICE, safe, log entry 7). -/
def sel (phase : Phase) (W I LEN : Nat) : Option Instr :=
  match phase with
  | .idle => none
  | .done => none
  | .squeeze => some .sqz
  | .absorb =>
    let off := 136 * W + I
    if I > 136 then none
    else if I = 136 then some .perm
    else if off < LEN then some .absb
    else if off = LEN ∧ I < 135 then some .pads
    else if off = LEN ∧ I = 135 then some .padb
    else if off > LEN ∧ I = 135 then some .pade
    else some .skip

/-- The selection function at the control registers of `s` (R53). -/
def State.sel (s : State) : Option Instr :=
  Machine.sel s.phase s.window s.pos.toNat s.len

end Sys2Proof.Machine
end

