-- ==== Sys2Proof/Machine/Flags.lean ====
section
/-! DEFINITION. The conditions the block tests. It "has no status flags, condition codes or predicates"
(spec/10_state.md R26): nothing is stored, and "the only conditions tested are comparisons of the control registers".
These are those comparisons, each as the rule of its operation words it under "Selected when" or "Enabled when". -/

namespace Sys2Proof.Machine

/-- A run is in progress: the phases in which a `START` is held (R67). -/
abbrev State.busy (s : State) : Prop :=
  s.phase = .absorb ∨ s.phase = .squeeze

/-- `ABSB` is selected: an unconsumed input byte exists at the position (R78). -/
abbrev State.selectsAbsb (s : State) : Prop :=
  s.phase = .absorb ∧ s.pos.toNat ≤ 135 ∧ s.offset < s.len

/-- `PADS` is selected: the input has just run out, not at the last position (R79). -/
abbrev State.selectsPads (s : State) : Prop :=
  s.phase = .absorb ∧ s.pos.toNat ≤ 134 ∧ s.offset = s.len

/-- `PADE` is selected: the last position, which received no input byte and no start marker (R80). -/
abbrev State.selectsPade (s : State) : Prop :=
  s.phase = .absorb ∧ s.pos.toNat = 135 ∧ 136 * s.window + 135 > s.len

/-- `PADB` is selected: the input has just run out at the last position (R81). -/
abbrev State.selectsPadb (s : State) : Prop :=
  s.phase = .absorb ∧ s.pos.toNat = 135 ∧ 136 * s.window + 135 = s.len

/-- `SKIP` is selected: the position receives nothing (R82). -/
abbrev State.selectsSkip (s : State) : Prop :=
  s.phase = .absorb ∧ s.pos.toNat ≤ 134 ∧ s.offset > s.len

/-- `PERM` is selected: a full window has been processed (R95). -/
abbrev State.selectsPerm (s : State) : Prop :=
  s.phase = .absorb ∧ s.pos.toNat = 136

/-- `SQZ` is selected (R115). -/
abbrev State.selectsSqz (s : State) : Prop :=
  s.phase = .squeeze

/-- The current window is the final one, `W = LEN div 136` (R96). -/
abbrev State.inFinalWindow (s : State) : Prop :=
  s.window = s.len / 136

end Sys2Proof.Machine
end

