-- ==== Sys2Proof/Machine/Absorb.lean ====
section
/-! DEFINITION. The five position operations (spec/41_pad_absorb.md). Each acts on state byte position `I` of window `W`
and ends with `I <- I + 1` (R77). In a control state that does not select it, a micro-operation has no meaning, because
the sequencer alone issues it (R50, R53; DESIGN CHOICE, safe, log entry 8). -/

namespace Sys2Proof.Machine

/-- `ABSB` (R78): XOR the input byte at offset `136*W + I` into the state. A byte the caller failed to bind is the one
place where the machine gets stuck (spec/93_implementation_defined.md U7; DESIGN CHOICE, safe, log entry 10). -/
def execAbsb (s : State) : Host.Outcome State Fault Refusal :=
  if s.selectsAbsb then
    match s.inputByte with
    | some b => .next ((s.xorAtPos b).advancePos.note (.inRead s.offset))
    | none => .fault (.inputByteMissing s.offset)
  else .refused .notSelected

/-- `PADS` (R79): XOR the start marker. -/
def execPads (s : State) : Host.Outcome State Fault Refusal :=
  if s.selectsPads then .next (s.xorAtPos padStart).advancePos
  else .refused .notSelected

/-- `PADE` (R80): XOR the end marker. -/
def execPade (s : State) : Host.Outcome State Fault Refusal :=
  if s.selectsPade then .next (s.xorAtPos padEnd).advancePos
  else .refused .notSelected

/-- `PADB` (R81): XOR the start marker, then the end marker, onto the one byte. -/
def execPadb (s : State) : Host.Outcome State Fault Refusal :=
  if s.selectsPadb then .next ((s.xorAtPos padStart).xorAtPos padEnd).advancePos
  else .refused .notSelected

/-- `SKIP` (R82): pass the position, the state unchanged. -/
def execSkip (s : State) : Host.Outcome State Fault Refusal :=
  if s.selectsSkip then .next s.advancePos
  else .refused .notSelected

end Sys2Proof.Machine
end

