-- ==== Sys2Proof/Machine/HostPort.lean ====
section
/-! DEFINITION. The three host transactions (spec/40_host_transactions.md). Each is one atomic step taken by HOST (R65). -/

namespace Sys2Proof.Machine

/-- `START` (R66). Held while a run is in progress: not accepted, nothing changes, the word stays on the port (R67); a
length that does not fit is refused, never truncated. Held comes before refused (DEDUCED, log entry 14). -/
def execStart (len : Nat) (s : State) : Host.Outcome State Fault Refusal :=
  if s.busy then .next s
  else if lengthFits s.lenw len then .next ((s.beginRun len).leavePort.note (.started len))
  else .refused .lengthTooLarge

/-- `RDST` (R68): return the phase, in any phase; it writes no state of the block. -/
def execRdst (s : State) : Host.Outcome State Fault Refusal :=
  .next (s.reply (.phase s.phase.code))

/-- `RDDG` (R69, R70): return the digest in phase DONE; it is refused wherever `D` holds no value
(R16; DEDUCED, safe, log entry 12). -/
def execRddg (s : State) : Host.Outcome State Fault Refusal :=
  match s.phase, s.digest with
  | .done, some d => .next (s.reply (.digest d))
  | _, _ => .refused .digestNotValid

end Sys2Proof.Machine
end

