-- ==== Sys2Proof/Config.lean ====
section
/-! DEFINITION. The one uninterpreted constant of the model: what a permutation provider of the platform's own computes
(spec/00_scope.md R7, parameter `P_PERM`). -/

namespace Sys2Proof

/-- FREE VALUE (DESIGN CHOICE, safe, log entry 2). The function that the `n`-th provider of the platform's own computes. R104 leaves the
function open; R97 to R103 constrain it to a total, pure bijection of the 25-lane state, which is what this type says.
It has no body: no proof can rest on what it is. -/
opaque Config.platformPermutation : Nat → Equiv.Perm Lanes

end Sys2Proof
end

