-- ==== Sys2Proof/Machine/KeccakF.lean ====
section
/-! DEFINITION. What the permutation provider computes (spec/42_permutation.md). Its body is outside the block (R4); the
default, Keccak-f[1600], follows R105 to R112, which the spec itself gives "from general knowledge, not in source"
(spec/93_implementation_defined.md G1; PRESUMED, unsafe, log entry 2). -/

namespace Sys2Proof.Machine

/-- Lane `A[x, y]` of the 5 by 5 matrix, `S[x + 5*y]`, coordinates modulo 5 (R105). -/
def matrixLane (A : Lanes) (x y : Nat) : Lane :=
  lane A (x % 5 + 5 * (y % 5))

/-- The state whose lane `A[x, y]` is `f x y` (R105). -/
def ofMatrix (f : Nat → Nat → Lane) : Lanes :=
  Vector.ofFn fun k => f (k.val % 5) (k.val / 5)

/-- The column parity `C[x]` (R107). -/
def columnParity (A : Lanes) (x : Nat) : Lane :=
  matrixLane A x 0 ^^^ matrixLane A x 1 ^^^ matrixLane A x 2 ^^^ matrixLane A x 3 ^^^ matrixLane A x 4

/-- Step theta (R107). -/
def theta (A : Lanes) : Lanes :=
  ofMatrix fun x y =>
    matrixLane A x y ^^^ (columnParity A (x + 4) ^^^ (columnParity A (x + 1)).rotateLeft 1)

/-- The rotation offsets by flat lane index, one row `y` of the table of R108 after the other. -/
def rhoOffsets : List Nat :=
  [0, 1, 62, 28, 27] ++
  [36, 44, 6, 55, 20] ++
  [3, 10, 43, 25, 39] ++
  [41, 45, 15, 21, 8] ++
  [18, 2, 61, 56, 14]

/-- Step rho (R108). -/
def rho (A : Lanes) : Lanes :=
  ofMatrix fun x y => (matrixLane A x y).rotateLeft (rhoOffsets.getD (x + 5 * y) 0)

/-- Step pi (R109): `A'[y, 2x + 3y] = A[x, y]`, written by destination, `A'[X, Y] = A[X + 3Y, X]`. -/
def piStep (A : Lanes) : Lanes :=
  ofMatrix fun X Y => matrixLane A (X + 3 * Y) X

/-- Step chi (R110). -/
def chi (A : Lanes) : Lanes :=
  ofMatrix fun x y => matrixLane A x y ^^^ (~~~ matrixLane A (x + 1) y &&& matrixLane A (x + 2) y)

/-- Step iota with the round constant `rc` (R111). -/
def iota (rc : Lane) (A : Lanes) : Lanes :=
  A.setIfInBounds 0 (lane A 0 ^^^ rc)

/-- The 24 round constants, round 0 first, one column of the table of R111 after the other. -/
def roundConstants : List Lane :=
  [0x0000000000000001, 0x0000000000008082, 0x800000000000808A, 0x8000000080008000,
   0x000000000000808B, 0x0000000080000001, 0x8000000080008081, 0x8000000000008009] ++
  [0x000000000000008A, 0x0000000000000088, 0x0000000080008009, 0x000000008000000A,
   0x000000008000808B, 0x800000000000008B, 0x8000000000008089, 0x8000000000008003] ++
  [0x8000000000008002, 0x8000000000000080, 0x000000000000800A, 0x800000008000000A,
   0x8000000080008081, 0x8000000000008080, 0x0000000080000001, 0x8000000080008008]

/-- One round, the five steps in the order of R106. -/
def keccakRound (A : Lanes) (rc : Lane) : Lanes :=
  iota rc (chi (piStep (rho (theta A))))

/-- Keccak-f[1600]: 24 rounds, round 0 first (R106). -/
def keccakF1600 (A : Lanes) : Lanes :=
  roundConstants.foldl keccakRound A

/-- Every lane complemented (spec/95_test_vectors.md X9). -/
def complementLanes (A : Lanes) : Lanes :=
  Vector.ofFn fun k => ~~~ lane A k.val

/-- `KeccakF`, the function of the connected provider: total, pure and applied to the whole state at once (R97, R99 to
R102, R104). -/
def Provider.apply : Provider → Lanes → Lanes
  | .keccakF1600 => Machine.keccakF1600
  | .identity => id
  | .complement => complementLanes
  | .platform n => Config.platformPermutation n

end Sys2Proof.Machine
end

