-- ==== Sys2Proof/Machine/Permute.lean ====
section
/-! DEFINITION. `PERM` (spec/42_permutation.md R95, R96): one atomic step, the provider's function on the whole state and
then the control transfer. -/

namespace Sys2Proof.Machine

/-- The data part: all 25 lanes replaced by `KeccakF` of all 25 lanes (R95). -/
def State.permuteLanes (s : State) : State :=
  { s with lanes := s.provider.apply s.lanes }

/-- The control part: leave absorption after the final window, else go to the next window (R96). -/
def State.endWindow (s : State) : State :=
  if s.inFinalWindow then { s with phase := .squeeze }
  else { s with window := s.window + 1, pos := 0 }

/-- `PERM` (R95, R96). It "always succeeds" (R100). -/
def execPerm (s : State) : Host.Outcome State Fault Refusal :=
  if s.selectsPerm then .next (s.permuteLanes.endWindow.note .permCall)
  else .refused .notSelected

end Sys2Proof.Machine
end

