-- ==== Sys2Proof/Machine/Squeeze.lean ====
section
/-! DEFINITION. `SQZ` (spec/43_squeeze.md). -/

namespace Sys2Proof.Machine

/-- `SQZ` (R115): copy state bytes 0 to 31 to `D` and end the run. It does not write `S` (R118; unsafe, log
entry 11). -/
def execSqz (s : State) : Host.Outcome State Fault Refusal :=
  if s.selectsSqz then
    .next ({ s with digest := some (squeezedDigest s.lanes), phase := .done }.note .digestReady)
  else .refused .notSelected

end Sys2Proof.Machine
end

