-- ==== Sys2Proof/Machine/Dispatch.lean ====
section
/-! DEFINITION. The meaning of every operation: one arm per constructor of Instr. -/

namespace Sys2Proof.Machine

def exec (i : Instr) (s : State) : Host.Outcome State Fault Refusal :=
  match i with
  | .start len => Sys2Proof.Machine.execStart len s
  | .rdst => Sys2Proof.Machine.execRdst s
  | .rddg => Sys2Proof.Machine.execRddg s
  | .absb => Sys2Proof.Machine.execAbsb s
  | .pads => Sys2Proof.Machine.execPads s
  | .pade => Sys2Proof.Machine.execPade s
  | .padb => Sys2Proof.Machine.execPadb s
  | .skip => Sys2Proof.Machine.execSkip s
  | .perm => Sys2Proof.Machine.execPerm s
  | .sqz => Sys2Proof.Machine.execSqz s

end Sys2Proof.Machine
end

