-- ==== Sys2Proof/Machine/Sequencer.lean ====
section
/-! DEFINITION. Who moves in a step, and with what: the reset input, then HOST's transaction on the port, then the engine
(spec/00_scope.md R5; spec/40_host_transactions.md R65; spec/30_encoding.md R53; DESIGN CHOICE, log entries 5, 6 and 14 to 16). -/

namespace Sys2Proof.Machine

/-- The operation a word on the host port asks for: a reserved code and a U format code, "which HOST may not issue", are
refused (R58). -/
def decodePort (w : Nat) : Except Refusal Instr :=
  match decodeWord w with
  | .ok i => if i.isHost then .ok i else .error .reservedOperation
  | .error _ => .error .reservedOperation

/-- The transaction is held: a `START` while a run is in progress (R67). -/
def State.holds (s : State) : Instr → Bool
  | .start _ => decide s.busy
  | .rdst => false
  | .rddg => false
  | .absb => false
  | .pads => false
  | .pade => false
  | .padb => false
  | .skip => false
  | .perm => false
  | .sqz => false

/-- Whose step it is. -/
inductive Turn where
  /-- HOST's transaction on the port is accepted or refused by its own meaning. -/
  | host (i : Instr)
  /-- The word on the port names no host transaction. -/
  | badWord (reason : Refusal)
  /-- The engine's: HOST does nothing, or its transaction is held. -/
  | engine
  deriving DecidableEq, Repr

/-- Whose step it is at `s`. -/
def State.turn (s : State) : Turn :=
  match s.host with
  | .transact w _ :: _ =>
    match decodePort w with
    | .ok i => if s.holds i then .engine else .host i
    | .error reason => .badWord reason
  | _ => .engine

/-- A step in which HOST does nothing has passed; a held transaction stays on the port (R67). -/
def State.passIdle (s : State) : State :=
  match s.host with
  | .idle :: rest => { s with host := rest }
  | _ => s

/-- The refusals of R154, which turn a transaction away without stopping the machine. -/
def Refusal.atPort : Refusal → Bool
  | .digestNotValid => true
  | .lengthTooLarge => true
  | .reservedOperation => true
  | _ => false

/-- A transaction's own outcome, where a refusal of R154 becomes the mark: the transaction leaves the port, no state of
the block changes, and HOST treats it as "not yet" (R143, R154; DESIGN CHOICE, unsafe, log entry 6). -/
def State.settle (s : State) : Host.Outcome State Fault Refusal → Host.Outcome State Fault Refusal
  | .refused reason => if reason.atPort then .next (s.refuseTransaction reason) else .refused reason
  | outcome => outcome

/-- The engine's step: the selected micro-operation, or no change where `Sel` gives none (R53, R153). -/
def State.engineStep (s : State) : Host.Outcome State Fault Refusal :=
  match s.sel with
  | some i => exec i s
  | none => .next s

/-- A step in which reset is not asserted. -/
def State.turnStep (s : State) : Host.Outcome State Fault Refusal :=
  match s.turn with
  | .host i => s.settle (exec i s)
  | .badWord reason => .next (s.refuseTransaction reason)
  | .engine => s.passIdle.engineStep

/-- The reset input as the next step finds it. -/
def State.passReset (s : State) : State :=
  { s with resetLine := s.resetLine.tail }

/-- One step of the machine: reset where it is asserted (R160), else whoever's turn it is. -/
def State.advance (s : State) : Host.Outcome State Fault Refusal :=
  match s.resetLine with
  | true :: _ => .next s.passReset.assertReset
  | _ => s.passReset.turnStep

/-- The machine with the word `w` on the host port, a buffer of as many zero bytes as it asks for offered with it. -/
def State.putOnPort (s : State) (w len : Nat) : State :=
  { s with resetLine := [], host := .transact w (List.replicate len 0) :: s.host }

/-- The machine with the engine's turn next, its control registers at the given values. -/
def State.placeEngine (s : State) (phase : Phase) (window : Nat) (pos : BitVec 8) (len : Nat) : State :=
  { s with
    resetLine := [], phase := phase, window := window, pos := pos, len := len
    host := match s.host with
      | [] => []
      | _ => .idle :: s.host }

/-- The machine set up so that its next step runs `i`, which the word `w` names. A host transaction is put on the port
(for a `START`, with no run in progress). A micro-operation is never fetched (R50), so the control registers are set to
values at which `Sel` gives it, and for `ABSB` one input byte is bound (DESIGN CHOICE, log entry 9). -/
def State.placeOperation (s : State) (w : Nat) : Instr → State
  | .start len => { s with phase := if s.busy then .idle else s.phase }.putOnPort w len
  | .rdst => s.putOnPort w 0
  | .rddg => s.putOnPort w 0
  | .absb => { s with input := Memory.ofBytes [0] }.placeEngine .absorb 0 0 1
  | .pads => s.placeEngine .absorb 0 0 0
  | .pade => s.placeEngine .absorb 0 135 0
  | .padb => s.placeEngine .absorb 0 135 135
  | .skip => s.placeEngine .absorb 0 1 0
  | .perm => s.placeEngine .absorb 0 136 0
  | .sqz => s.placeEngine .squeeze s.window s.pos s.len

end Sys2Proof.Machine
end

