-- ==== Sys2Proof/Machine/Step.lean ====
section
/-! DEFINITION. One step of the machine, and where its next operation comes from. -/

namespace Sys2Proof.Machine

/-- One step (R5, R65): see `State.advance`. -/
def step (s : State) : Host.Outcome State Fault Refusal :=
  s.advance

/-- `s` with the word `w` of `nbits` bits where the next step takes its operation from: see `State.placeOperation`. A word
that names no operation is put on the host port, where it is refused (R58). -/
def State.withFetchWord (s : State) (nbits w : Nat) : State :=
  match decodeWord (w % 2 ^ nbits) with
  | .ok i => s.placeOperation (w % 2 ^ nbits) i
  | .error _ => s.putOnPort (w % 2 ^ nbits) 0

end Sys2Proof.Machine
end

