-- ==== Sys2Proof/Machine/Composite.lean ====
section
/-! DEFINITION. The whole computation in closed form (spec/44_composite.md), and the pseudo-operations `WINDOW`, `ABSORB`
and `HASH` as the operations they expand to (spec/30_encoding.md R61). Nothing here adds behaviour: the step machine is to
be proved equal to it. `f` is `KeccakF`, the provider's function. -/

namespace Sys2Proof.Machine

/-- `P[off]`, the byte that the position at input offset `off` receives over the run (R89). The rate position is
`off mod 136`. -/
def paddedByte (m : List Byte) (off : Nat) : Byte :=
  if off < m.length then m.getD off 0
  else if off = m.length then if off % 136 = 135 then 0x81 else 0x01
  else if off % 136 = 135 then 0x80 else 0x00

/-- `NW`, the number of windows of a run of length `len` (R85). -/
def windowCount (len : Nat) : Nat :=
  len / 136 + 1

/-- The padded message `P` (R126). -/
def paddedMessage (m : List Byte) : List Byte :=
  let q := 136 - m.length % 136
  if q = 1 then m ++ [0x81]
  else m ++ [0x01] ++ List.replicate (q - 2) 0x00 ++ [0x80]

/-- `M` recovered from `P` (R131): clear bit 7 of the last byte; the last non-zero byte is then the start marker, and `M`
is everything before it. -/
def unpad (p : List Byte) : List Byte :=
  match p.reverse with
  | [] => []
  | last :: before => (((last &&& 0x7F) :: before).dropWhile (· = 0)).tail.reverse

/-- The state after the first `n` position steps of window `w` (R89, R125). -/
def absorbPositions (m : List Byte) (w : Nat) : Nat → Lanes → Lanes
  | 0, S => S
  | n + 1, S => xorb (absorbPositions m w n S) n (paddedByte m (136 * w + n))

/-- The state after the first `w` windows, each absorbed and then permuted (R125). -/
def absorbWindows (f : Lanes → Lanes) (m : List Byte) : Nat → Lanes
  | 0 => zeroLanes
  | w + 1 => f (absorbPositions m w 136 (absorbWindows f m w))

/-- The digest function of R125. -/
def keccak256 (f : Lanes → Lanes) (m : List Byte) : Digest :=
  squeezedDigest (absorbWindows f m (windowCount m.length))

/-- The 64-bit value of a little-endian byte string (R34). -/
def leLane (bs : List Byte) : Lane :=
  BitVec.ofNat 64 (leNat bs)

/-- A block of 136 bytes absorbed as 17 lane XORs, the eight capacity lanes untouched (R46, R127). -/
def absorbBlock (block : List Byte) (S : Lanes) : Lanes :=
  Vector.ofFn fun k =>
    if k.val < 17 then lane S k.val ^^^ leLane ((block.drop (8 * k.val)).take 8) else lane S k.val

/-- The state `S_n` of the block form (R127). -/
def blockState (f : Lanes → Lanes) (p : List Byte) : Nat → Lanes
  | 0 => zeroLanes
  | n + 1 => f (absorbBlock ((p.drop (136 * n)).take 136) (blockState f p n))

/-- `WINDOW w`: the 136 position operations `Sel` yields in window `w`, then `PERM` (R61). -/
def windowOps (len w : Nat) : List Instr :=
  (List.range 136).filterMap (fun i => sel .absorb w i len) ++ [.perm]

/-- `ABSORB`: every window of the run (R61). -/
def absorbOps (len : Nat) : List Instr :=
  (List.range (windowCount len)).flatMap (windowOps len)

/-- The engine's part of a run: `ABSORB`, then `SQZ` (R61). -/
def engineOps (len : Nat) : List Instr :=
  absorbOps len ++ [.sqz]

/-- `HASH M` (R61). -/
def hashOps (len : Nat) : List Instr :=
  .start len :: engineOps len ++ [.rddg]

/-- The external events of window `w`: its `IN` reads in ascending order, then the permutation call (R45). -/
def windowEvents (len w : Nat) : List Event :=
  ((List.range 136).filter (fun i => 136 * w + i < len)).map (fun i => Event.inRead (136 * w + i)) ++ [.permCall]

/-- The external events of a run, in order (R45). -/
def runEvents (len : Nat) : List Event :=
  .started len :: (List.range (windowCount len)).flatMap (windowEvents len) ++ [.digestReady]

end Sys2Proof.Machine
end

