-- ==== Sys2Proof/Safety.lean ====
section
/-! DEFINITION. The terms in which claims speak of runs: what HOST owes the block, which control states are well-formed, what
the state holds at each point of a run, and how many steps a run still takes. -/

namespace Sys2Proof.Machine

/-- HOST's duty of R71 and R165 (a), for the transactions it has yet to issue: a `START(L)` comes with a buffer of `L`
readable bytes. -/
def State.hostDuty (s : State) : Prop :=
  ∀ w buffer len, HostMove.transact w buffer ∈ s.host → decodeWord w = .ok (.start len) → len ≤ buffer.length

/-- The well-formed control states of R23. -/
def State.controlWf (s : State) : Prop :=
  match s.phase with
  | .idle => True
  | .absorb => s.pos.toNat ≤ 136 ∧ s.window ≤ s.len / 136
  | .squeeze => s.window = s.len / 136 ∧ s.pos.toNat = 136
  | .done => s.window = s.len / 136 ∧ s.pos.toNat = 136

/-- The byte sequence `m` is the input `M` bound to the run in progress, or last finished (R71). -/
def State.runsOn (s : State) (m : List Byte) : Prop :=
  m.length = s.len ∧ s.input = Memory.ofBytes m

/-- What `S` and `D` hold at each point of a run on `m` (R23, R89, R125). In phase DONE it says nothing of `S` (R118). -/
def State.progressOn (s : State) (m : List Byte) : Prop :=
  match s.phase with
  | .idle => s.lanes = zeroLanes ∧ s.digest = none
  | .absorb =>
    s.lanes = absorbPositions m s.window s.pos.toNat (absorbWindows s.provider.apply m s.window) ∧ s.digest = none
  | .squeeze => s.lanes = absorbWindows s.provider.apply m (windowCount m.length) ∧ s.digest = none
  | .done => s.digest = some (keccak256 s.provider.apply m)

/-- The invariant of a machine whose HOST keeps its duty: the control state is well-formed, the length fits its register,
and `S` and `D` hold what the run on the bound input has made of them so far. -/
structure State.RunInv (s : State) : Prop where
  duty : s.hostDuty
  fits : lengthFits s.lenw s.len = true
  control : s.controlWf
  run : ∃ m, (s.phase ≠ .idle → s.runsOn m) ∧ s.progressOn m

/-- The engine's own steps still to come until DONE (R128). -/
def State.remainingSteps (s : State) : Nat :=
  match s.phase with
  | .idle => 0
  | .absorb => 137 * (windowCount s.len - s.window) - s.pos.toNat + 1
  | .squeeze => 1
  | .done => 0

/-- HOST and the reset input are silent, now and later. -/
abbrev State.quiet (s : State) : Prop :=
  s.host = [] ∧ s.resetLine = []

/-- The operations the engine performs in its next `n` steps, HOST silent. -/
def engineTrace : Nat → State → List Instr
  | 0, _ => []
  | n + 1, s =>
    match s.sel with
    | none => []
    | some i =>
      match step s with
      | .next t => i :: engineTrace n t
      | _ => [i]

end Sys2Proof.Machine
end

