-- ==== Sys2Proof/Certificates/Slice0/Obligations.lean ====
section
/-! DEFINITION. The statements for the provers. They are about every state unless a premise says otherwise, and about every
permutation provider the platform can connect. -/

open Sys2Proof Sys2Proof.Machine

/-! ## Steps, reset -/

/-- A step in which HOST has a transaction on the port that is not held is that transaction's own meaning, at the state
after the reset input has passed. That the word goes before an engine step which is enabled too is the model's choice (log
entry 16; R144 allows either order), and so is that a refusal of R154 turns into the mark (`State.settle`), with which the
machine goes on (log entry 6). -/
def Obligations.StepRunsTheTransactionOnThePort : Prop :=
  ∀ (s : State) (w : Nat) (buffer : List Byte) (rest : List HostMove) (i : Instr),
    s.resetLine.head? ≠ some true → s.host = .transact w buffer :: rest → decodeWord w = .ok i → i.isHost = true →
    s.holds i = false →
      step s = s.passReset.settle (exec i s.passReset) ∧
      (∀ t, exec i s.passReset = .next t → step s = .next t)

/-- A step in which HOST does nothing, or has a held `START` on the port, is the meaning of the micro-operation that `Sel`
gives, at the state after the reset input and HOST's idle move have passed. The list of HOST's moves is the model's own
(log entry 5). That HOST's later moves wait behind a held `START`, and that one whose length does not fit is held too, is
the model's choice (log entry 14). -/
def Obligations.StepRunsTheSelectedMicroOperation : Prop :=
  ∀ (s : State) (i : Instr), s.resetLine.head? ≠ some true → s.sel = some i →
    (s.host = [] → step s = exec i s.passReset) ∧
    (∀ rest, s.host = .idle :: rest → step s = exec i { s.passReset with host := rest }) ∧
    (∀ w buffer rest len, s.host = .transact w buffer :: rest → decodeWord w = .ok (.start len) → s.busy →
      step s = exec i s.passReset)

/-- Reset asserted, in any phase, whatever HOST has on the port: the values of R160, and the engine then waits. The input
buffer is released. The frame is the model's choice (log entries 13, 15 and 16): reset goes before the port, a transaction
on the port and HOST's coming moves survive it, what the platform has connected stays, and the records are kept. -/
def Obligations.ResetInputResetsTheBlock : Prop :=
  ∀ (s : State) (rest : List Bool), s.resetLine = true :: rest →
    ∃ t, step s = .next t ∧ (∀ k < 25, lane t.lanes k = 0) ∧ t.digest = none ∧ t.phase = .idle ∧ t.len = 0 ∧
      t.window = 0 ∧ t.pos = 0 ∧ t.sel = none ∧ t.input = [] ∧ t.resetLine = rest ∧
      t = { s with
            lanes := t.lanes, digest := t.digest, phase := t.phase, len := t.len, window := t.window, pos := t.pos
            input := t.input, resetLine := t.resetLine }

/-- The reset values of the table of R24. -/
def Obligations.ResetValuesOfTheBlock : Prop :=
  (∀ k < 25, lane State.reset.lanes k = 0x0000000000000000) ∧ State.reset.digest = none ∧
    State.reset.phase.code = 0 ∧ State.reset.len = 0 ∧ State.reset.window = 0 ∧ State.reset.pos = 0 ∧
    State.reset.input = []

/-- In phases IDLE and DONE the engine has no step: with HOST silent, a step changes nothing. -/
def Obligations.EngineWaitsInIdleAndDone : Prop :=
  ∀ s : State, s.phase = .idle ∨ s.phase = .done → s.quiet → step s = .next s

/-! ## Operation words -/

/-- Decoding gives back every operation with every operand; the word of a well-formed one fits the bits of its format; a
word that decodes is the encoding's, up to the bits above `OP` of a word without a `LEN` field (log entry 4). -/
def Obligations.DecodeAndEncodeAgree : Prop :=
  (∀ i : Instr, decodeWord (encodeWord i) = .ok i) ∧
    (∀ (i : Instr) (bits : Nat), i.wellFormed (some bits) = true → encodeWord i < 2 ^ (bits + 4)) ∧
    (∀ (w : Nat) (i : Instr), decodeWord w = .ok i →
      encodeWord i = match i with
        | .start _ => w
        | _ => w % 16)

/-- A word with a reserved code, and a word with a U format code, is turned away from the host port: the block keeps its
state, HOST gets the mark and no value; and `Sel` never gives anything but a micro-operation. That the refused word leaves
the port with the mark, and the machine goes on, is the model's choice (log entry 6). -/
def Obligations.ReservedWordsAreRefused : Prop :=
  (∀ (s : State) (w : Nat) (buffer : List Byte) (rest : List HostMove),
    s.resetLine = [] → s.host = .transact w buffer :: rest → w % 16 ∈ [0, 4, 5, 6, 7, 8, 9, 10, 11, 12, 13, 14, 15] →
      step s = .next { s with host := rest, replies := s.replies ++ [.refused .reservedOperation] }) ∧
    (∀ (s : State) (i : Instr), s.sel = some i → i ∈ [.absb, .pads, .pade, .padb, .skip, .perm, .sqz])

/-- Words written out from the codes of R52: `OP` in bits 3 to 0, `START`'s length above. -/
def Obligations.WordsOfTheOperationMap : Prop :=
  decodeWord 0b0011_0001 = .ok (.start 3) ∧ decodeWord 0b0010 = .ok .rdst ∧ decodeWord 0b0011 = .ok .rddg ∧
    decodeWord 0b1000 = .ok .absb ∧ decodeWord 0b1001 = .ok .pads ∧ decodeWord 0b1010 = .ok .pade ∧
    decodeWord 0b1011 = .ok .padb ∧ decodeWord 0b1100 = .ok .skip ∧ decodeWord 0b1101 = .ok .perm ∧
    decodeWord 0b1110 = .ok .sqz ∧ decodeWord 0b1111 = .error (.reservedCode 15)

/-! ## Host transactions -/

/-- `START` accepted: `S` zero, `D` without a value, `LEN`, `W`, `I` and `PHASE` set, the offered buffer bound as `M`. R71
speaks of a buffer of exactly `L` bytes; that of a longer offer the first `L` bytes are bound, and all of a shorter one, is
the model's choice (log entry 10). -/
def Obligations.StartBeginsTheRun : Prop :=
  ∀ (s : State) (len : Nat), s.phase = .idle ∨ s.phase = .done → lengthFits s.lenw len = true →
    ∃ t, exec (.start len) s = .next t ∧ (∀ k < 25, lane t.lanes k = 0) ∧ t.digest = none ∧ t.len = len ∧
      t.window = 0 ∧ t.pos = 0 ∧ t.phase = .absorb ∧
      (∀ off, t.input.read off = if off < len then s.offered[off]? else none) ∧
      t.host = s.host.tail ∧ t.events = s.events ++ [.started len] ∧
      t = { s with
            lanes := t.lanes, digest := t.digest, len := t.len, window := t.window, pos := t.pos, phase := t.phase
            input := t.input, host := t.host, events := t.events }

/-- `START` while a run is in progress is held: nothing changes and it stays on the port while the engine steps. What lifts
the hold: as long as HOST keeps its duty, the engine's own steps end the run, after which it is no longer held. That HOST's
later moves wait behind the `START`, and that one whose length does not fit is held before it is refused, is the model's
choice (log entry 14). -/
def Obligations.StartIsHeldDuringARun : Prop :=
  (∀ (s : State) (len : Nat), s.busy → exec (.start len) s = .next s) ∧
    (∀ (s t : State) (w : Nat) (buffer : List Byte) (rest : List HostMove) (len : Nat),
      s.busy → s.resetLine = [] → s.host = .transact w buffer :: rest → decodeWord w = .ok (.start len) →
      step s = .next t → t.host = s.host) ∧
    (∀ (s : State) (w : Nat) (buffer : List Byte) (rest : List HostMove) (len : Nat),
      s.RunInv → s.busy → s.resetLine = [] → s.host = .transact w buffer :: rest → decodeWord w = .ok (.start len) →
      ∃ t, core.run s.remainingSteps s = .next t ∧ t.phase = .done ∧ t.host = s.host ∧
        t.turn = .host (.start len))

/-- A length that does not fit `P_LENW` bits is refused, never truncated, and no state of the block changes. That the
transaction leaves the port with the mark, and the machine goes on, is the model's choice (log entry 6). -/
def Obligations.StartWithTooLargeALengthIsRefused : Prop :=
  ∀ (s : State) (bits len : Nat), ¬ s.busy → s.lenw = some bits → 2 ^ bits ≤ len →
    exec (.start len) s = .refused .lengthTooLarge ∧
    (∀ buffer rest, s.resetLine = [] → s.host = .transact (encodeWord (.start len)) buffer :: rest →
      step s = .next { s with host := rest, replies := s.replies ++ [.refused .lengthTooLarge] })

/-- `RDST` in any phase returns the 2-bit phase code and writes no state of the block. -/
def Obligations.RdstReturnsThePhase : Prop :=
  encodeWord .rdst = 0x2 ∧
    (Phase.idle.code = 0 ∧ Phase.absorb.code = 1 ∧ Phase.squeeze.code = 2 ∧ Phase.done.code = 3) ∧
    ∀ s : State,
      exec .rdst s = .next { s with host := s.host.tail, replies := s.replies ++ [.phase s.phase.code] }

/-- `RDDG` in phase DONE returns the 32 bytes of `D`, `D[0]` first, and writes no state of the block; `D` keeps its value,
so that a second `RDDG` returns it again. -/
def Obligations.RddgReturnsTheDigest : Prop :=
  ∀ (s : State) (d : Digest), s.phase = .done → s.digest = some d →
    exec .rddg s = .next { s with host := s.host.tail, replies := s.replies ++ [.digest d] } ∧
    (∀ t, exec .rddg s = .next t →
      exec .rddg t = .next { t with host := t.host.tail, replies := t.replies ++ [.digest d] })

/-- `RDDG` outside phase DONE is refused: it returns no value, and on the port the block keeps its whole state. That the
transaction leaves the port with the mark, and the machine goes on, is the model's choice (log entry 6). -/
def Obligations.RddgOutsideDoneIsRefused : Prop :=
  ∀ s : State, s.phase ≠ .done →
    exec .rddg s = .refused .digestNotValid ∧
    (∀ buffer rest, s.resetLine = [] → s.host = .transact (encodeWord .rddg) buffer :: rest →
      step s = .next { s with host := rest, replies := s.replies ++ [.refused .digestNotValid] })

/-- No host transaction reads `S`: with any other contents of `S` it has the same outcome, and the states it leaves agree
in everything but `S`. -/
def Obligations.HostTransactionsDoNotReadTheState : Prop :=
  ∀ (s : State) (i : Instr) (S : Lanes), i.isHost = true →
    (∀ t, exec i s = .next t → ∃ u, exec i { s with lanes := S } = .next u ∧ t = { u with lanes := t.lanes }) ∧
    (∀ r, exec i s = .refused r → exec i { s with lanes := S } = .refused r) ∧
    (∀ r, exec i s ≠ .fault r)

/-! ## The byte view -/

/-- `XORB(i, b)`: lane `i div 8` takes the byte shifted by `8*(i mod 8)`, every other lane is unchanged; in the byte view
`SB(i)` takes the byte and every other state byte is unchanged. -/
def Obligations.XorbChangesOneStateByte : Prop :=
  ∀ (S : Lanes) (i : Nat) (b : Byte), i ≤ 135 →
    (∀ k < 25, lane (xorb S i b) k =
      if k = i / 8 then lane S k ^^^ (b.setWidth 64 <<< (8 * (i % 8))) else lane S k) ∧
    (∀ bit < 64, ¬ (8 * (i % 8) ≤ bit ∧ bit ≤ 8 * (i % 8) + 7) →
      (lane (xorb S i b) (i / 8)).getLsbD bit = (lane S (i / 8)).getLsbD bit) ∧
    (∀ j < 200, stateByte (xorb S i b) j = if j = i then stateByte S j ^^^ b else stateByte S j)

/-- The laws of R76 (b) to (e): the zero byte changes nothing, twice restores, two bytes combine by XOR, and any two
positions commute. -/
def Obligations.XorbLaws : Prop :=
  ∀ (S : Lanes) (i j : Nat) (a b : Byte), i ≤ 135 → j ≤ 135 →
    xorb S i 0 = S ∧ xorb (xorb S i b) i b = S ∧ xorb (xorb S i a) i b = xorb S i (a ^^^ b) ∧
    xorb (xorb S i a) j b = xorb (xorb S j b) i a

/-- Lanes are little-endian in the byte view: a lane is the sum of its eight state bytes, the lower position the less
significant, and a byte XORed at position `i` is seen by a lane read at bits `8*(i mod 8)` to `8*(i mod 8) + 7`. -/
def Obligations.LanesAreLittleEndian : Prop :=
  (∀ (S : Lanes) (k : Nat), k ≤ 24 →
    (lane S k).toNat = ((List.range 8).map fun m => 2 ^ (8 * m) * (stateByte S (8 * k + m)).toNat).sum) ∧
  (∀ (S : Lanes) (i : Nat) (b : Byte) (bit : Nat), i ≤ 135 → bit < 8 →
    (lane (xorb S i b) (i / 8)).getLsbD (8 * (i % 8) + bit) =
      ((lane S (i / 8)).getLsbD (8 * (i % 8) + bit) ^^ b.getLsbD bit))

/-! ## Position operations -/

/-- `ABSB`: state byte `I` takes the input byte at offset `136*W + I` by XOR, every other state byte is unchanged, `I`
advances, one `IN` read is made at that offset, and nothing else changes. -/
def Obligations.AbsbAbsorbsTheInputByte : Prop :=
  ∀ (s : State) (b : Byte), s.phase = .absorb → s.pos.toNat ≤ 135 → 136 * s.window + s.pos.toNat < s.len →
    s.input.read (136 * s.window + s.pos.toNat) = some b →
    ∃ t, exec .absb s = .next t ∧
      (∀ j < 200, stateByte t.lanes j =
        if j = s.pos.toNat then stateByte s.lanes j ^^^ b else stateByte s.lanes j) ∧
      t.pos.toNat = s.pos.toNat + 1 ∧
      t.events = s.events ++ [.inRead (136 * s.window + s.pos.toNat)] ∧
      (∀ off, t.input.read off = s.input.read off) ∧
      t = { s with lanes := t.lanes, pos := t.pos, events := t.events }

/-- Where the caller bound no byte at the offset, `ABSB` stops by name: it makes up no byte (the model's choice, log entry 10,
from what U7 offers). -/
def Obligations.AbsbStopsOnAMissingByte : Prop :=
  ∀ s : State, s.phase = .absorb → s.pos.toNat ≤ 135 → 136 * s.window + s.pos.toNat < s.len →
    s.input.read (136 * s.window + s.pos.toNat) = none →
    exec .absb s = .fault (.inputByteMissing (136 * s.window + s.pos.toNat))

/-- `PADS`: state byte `I` takes `0x01` by XOR, every other state byte is unchanged, `I` advances, nothing else changes. -/
def Obligations.PadsXorsTheStartMarker : Prop :=
  ∀ s : State, s.phase = .absorb → s.pos.toNat ≤ 134 → 136 * s.window + s.pos.toNat = s.len →
    ∃ t, exec .pads s = .next t ∧
      (∀ j < 200, stateByte t.lanes j =
        if j = s.pos.toNat then stateByte s.lanes j ^^^ 0x01 else stateByte s.lanes j) ∧
      t.pos.toNat = s.pos.toNat + 1 ∧ t = { s with lanes := t.lanes, pos := t.pos }

/-- `PADE`: it toggles bit 63 of `S[16]`, the top bit of state byte 135, and nothing else of `S`; `I` becomes 136. -/
def Obligations.PadeXorsTheEndMarker : Prop :=
  ∀ s : State, s.phase = .absorb → s.pos.toNat = 135 → 136 * s.window + 135 > s.len →
    ∃ t, exec .pade s = .next t ∧
      (∀ k < 25, lane t.lanes k = if k = 16 then lane s.lanes k ^^^ 0x8000000000000000 else lane s.lanes k) ∧
      (∀ j < 200, stateByte t.lanes j = if j = 135 then stateByte s.lanes j ^^^ 0x80 else stateByte s.lanes j) ∧
      t.pos = 136 ∧ t = { s with lanes := t.lanes, pos := t.pos }

/-- `PADB`: both markers on state byte 135, `S[16]` XORed with `0x8100000000000000`; `I` becomes 136. -/
def Obligations.PadbXorsBothMarkers : Prop :=
  ∀ s : State, s.phase = .absorb → s.pos.toNat = 135 → 136 * s.window + 135 = s.len →
    ∃ t, exec .padb s = .next t ∧
      (∀ k < 25, lane t.lanes k = if k = 16 then lane s.lanes k ^^^ 0x8100000000000000 else lane s.lanes k) ∧
      (∀ j < 200, stateByte t.lanes j = if j = 135 then stateByte s.lanes j ^^^ 0x81 else stateByte s.lanes j) ∧
      t.pos = 136 ∧ t = { s with lanes := t.lanes, pos := t.pos }

/-- `SKIP`: `I` advances and nothing else changes. -/
def Obligations.SkipOnlyAdvances : Prop :=
  ∀ s : State, s.phase = .absorb → s.pos.toNat ≤ 134 → 136 * s.window + s.pos.toNat > s.len →
    ∃ t, exec .skip s = .next t ∧ t.pos.toNat = s.pos.toNat + 1 ∧ t = { s with pos := t.pos }

/-! ## PERM and SQZ -/

/-- `PERM`: all 25 lanes become the provider's function of all 25 lanes; in the final window `PHASE` becomes SQUEEZE, `W`
and `I` keep their values and `SQZ` comes next, so no further permutation is made; else `W` advances and `I` is 0. The
final-window test is `136*(W + 1) > LEN` wherever `W` has not passed the final window. -/
def Obligations.PermPermutesAndEndsTheWindow : Prop :=
  ∀ s : State, s.phase = .absorb → s.pos.toNat = 136 →
    ∃ t, exec .perm s = .next t ∧ t.lanes = s.provider.apply s.lanes ∧
      (s.window = s.len / 136 →
        t.phase = .squeeze ∧ t.window = s.window ∧ t.pos.toNat = 136 ∧ t.sel = some .sqz) ∧
      (s.window ≠ s.len / 136 → t.phase = .absorb ∧ t.window = s.window + 1 ∧ t.pos = 0) ∧
      (s.window ≤ s.len / 136 → (s.window = s.len / 136 ↔ 136 * (s.window + 1) > s.len)) ∧
      t.events = s.events ++ [.permCall] ∧
      t = { s with lanes := t.lanes, phase := t.phase, window := t.window, pos := t.pos, events := t.events }

/-- `SQZ`: `D[j]` is `(S[j div 8] >> (8*(j mod 8)))[7:0]` for `j` from 0 to 31, and `PHASE` is DONE. The other control
registers, the input and HOST's side are unchanged. It says nothing of `S` in DONE, as R118 asks of every claim. -/
def Obligations.SqzReadsOutTheDigest : Prop :=
  ∀ s : State, s.phase = .squeeze →
    ∃ t, exec .sqz s = .next t ∧
      (∃ d : Digest, t.digest = some d ∧
        ∀ (j : Nat) (h : j < 32), d[j] = (lane s.lanes (j / 8) >>> (8 * (j % 8))).setWidth 8) ∧
      t.phase = .done ∧ t.events = s.events ++ [.digestReady] ∧
      t = { s with lanes := t.lanes, digest := t.digest, phase := t.phase, events := t.events }

/-- The digest as one 256-bit word: `D[j]` in bits `8*j + 7` to `8*j`, so that the word `SQZ` leaves is
`S[3] || S[2] || S[1] || S[0]`; `SQZ` writes `D[j] <- SB(j)`, and `RDDG` returns `D`. -/
def Obligations.DigestWordIsLanesThreeToZero : Prop :=
  (∀ (d : Digest) (j : Nat) (h : j < 32), (digestWord d).extractLsb' (8 * j) 8 = d[j]) ∧
    (∀ s : State, s.phase = .squeeze →
      ∃ t d, exec .sqz s = .next t ∧ t.digest = some d ∧ (∀ (j : Nat) (h : j < 32), d[j] = stateByte s.lanes j) ∧
        digestWord d = lane s.lanes 3 ++ lane s.lanes 2 ++ lane s.lanes 1 ++ lane s.lanes 0 ∧
        exec .rddg t = .next { t with host := t.host.tail, replies := t.replies ++ [.digest d] })

/-- `SQZ` reads no lane from 4 to 24, none of the capacity among them: two states that agree in lanes 0 to 3 give the same
digest. -/
def Obligations.DigestDependsOnLanesZeroToThree : Prop :=
  ∀ (s u : State) (S : Lanes), s.phase = .squeeze → u = { s with lanes := S } →
    (∀ k < 4, lane S k = lane s.lanes k) →
    ∃ t v, exec .sqz s = .next t ∧ exec .sqz u = .next v ∧ v = { t with lanes := v.lanes }

/-- `KeccakF` is a bijection on the states, whichever provider is connected. -/
def Obligations.KeccakFIsABijection : Prop :=
  ∀ p : Provider, Function.Bijective p.apply

/-- The steps of Keccak-f[1600] in the matrix coordinates of R105, as R107 to R111 write them, with the rotation offsets of
the table of R108, row `y` and column `x`, and 24 rounds, round 0 first, with the round constants of the table of R111: its
line `r mod 8` holds those of rounds `r`, `r + 8` and `r + 16`. The body is the spec's general knowledge, not its source's (log entry 2). -/
def Obligations.KeccakStepsInMatrixCoordinates : Prop :=
  (∀ (A : Lanes) (x y : Nat), x < 5 → y < 5 →
    lane A (x + 5 * y) = matrixLane A x y ∧
    matrixLane (theta A) x y =
      matrixLane A x y ^^^
        ((List.range 5).foldl (fun c y' => c ^^^ matrixLane A ((x + 4) % 5) y') 0 ^^^
          ((List.range 5).foldl (fun c y' => c ^^^ matrixLane A ((x + 1) % 5) y') 0).rotateLeft 1) ∧
    (let row : List Nat :=
      match y with
      | 0 => [0, 1, 62, 28, 27]
      | 1 => [36, 44, 6, 55, 20]
      | 2 => [3, 10, 43, 25, 39]
      | 3 => [41, 45, 15, 21, 8]
      | _ => [18, 2, 61, 56, 14]
    matrixLane (rho A) x y = (matrixLane A x y).rotateLeft (row.getD x 0)) ∧
    matrixLane (piStep A) y ((2 * x + 3 * y) % 5) = matrixLane A x y ∧
    matrixLane (chi A) x y =
      matrixLane A x y ^^^ (~~~ matrixLane A ((x + 1) % 5) y &&& matrixLane A ((x + 2) % 5) y) ∧
    (∀ rc, matrixLane (iota rc A) x y =
      if x = 0 ∧ y = 0 then matrixLane A x y ^^^ rc else matrixLane A x y)) ∧
  (∀ A : Lanes, keccakF1600 A =
    (List.range 24).foldl (fun B r =>
      let row : List Lane := [
        [0x0000000000000001, 0x000000000000008A, 0x8000000000008002],
        [0x0000000000008082, 0x0000000000000088, 0x8000000000000080],
        [0x800000000000808A, 0x0000000080008009, 0x000000000000800A],
        [0x8000000080008000, 0x000000008000000A, 0x800000008000000A],
        [0x000000000000808B, 0x000000008000808B, 0x8000000080008081],
        [0x0000000080000001, 0x800000000000008B, 0x8000000000008080],
        [0x8000000080008081, 0x8000000000008089, 0x0000000080000001],
        [0x8000000000008009, 0x8000000000008003, 0x8000000080008008]].getD (r % 8) []
      iota (row.getD (r / 8) 0) (chi (piStep (rho (theta B))))) A)

/-! ## Selection -/

/-- `Sel` gives a micro-operation exactly where that operation's own rule says it is selected. It is said of every state: that
`Sel` gives nothing in ABSORB at a position above 136, where R53 read by the letter would select, is the model's choice
(log entry 7). -/
def Obligations.SelectionAgreesWithEachOperation : Prop :=
  ∀ s : State,
    (s.sel = some .absb ↔ s.phase = .absorb ∧ s.pos.toNat ≤ 135 ∧ 136 * s.window + s.pos.toNat < s.len) ∧
    (s.sel = some .pads ↔ s.phase = .absorb ∧ s.pos.toNat ≤ 134 ∧ 136 * s.window + s.pos.toNat = s.len) ∧
    (s.sel = some .padb ↔ s.phase = .absorb ∧ s.pos.toNat = 135 ∧ 136 * s.window + 135 = s.len) ∧
    (s.sel = some .pade ↔ s.phase = .absorb ∧ s.pos.toNat = 135 ∧ 136 * s.window + 135 > s.len) ∧
    (s.sel = some .skip ↔ s.phase = .absorb ∧ s.pos.toNat ≤ 134 ∧ 136 * s.window + s.pos.toNat > s.len) ∧
    (s.sel = some .perm ↔ s.phase = .absorb ∧ s.pos.toNat = 136) ∧
    (s.sel = some .sqz ↔ s.phase = .squeeze) ∧
    (s.phase = .idle ∨ s.phase = .done → s.sel = none)

/-- In a well-formed control state of a run exactly one micro-operation is selected, it is not refused, and it stops only
where the caller bound no byte; a micro-operation that is not selected is refused, the model's choice (log entry 8). -/
def Obligations.SelectionIsTotalAndExact : Prop :=
  (∀ s : State, s.busy → s.controlWf → ∃ i, s.sel = some i ∧
    ((∃ t, exec i s = .next t) ∨ (i = .absb ∧ s.input.read s.offset = none))) ∧
  (∀ (s : State) (i : Instr), i.isHost = false → s.sel ≠ some i → exec i s = .refused .notSelected)

/-! ## Whole-machine rules -/

/-- Which operations write which register, over every operation and every state: `S` and its capacity lanes, `D`, `PHASE`,
`LEN`, `W`, `I`, the bound input, and the platform's parameters, which none writes. What `S` is after `SQZ`, in phase DONE,
is left out, as R118 asks of every claim. -/
def Obligations.RegistersAreWrittenOnlyByTheirWriters : Prop :=
  ∀ (s t : State) (i : Instr), exec i s = .next t →
    (i ≠ .sqz → t.lanes ≠ s.lanes →
      i = .absb ∨ i = .pads ∨ i = .pade ∨ i = .padb ∨ i = .perm ∨ ∃ len, i = .start len) ∧
    (i ≠ .sqz → (∃ k, 17 ≤ k ∧ k < 25 ∧ lane t.lanes k ≠ lane s.lanes k) → i = .perm ∨ ∃ len, i = .start len) ∧
    (t.digest ≠ s.digest → i = .sqz ∨ ∃ len, i = .start len) ∧
    (t.phase ≠ s.phase → i = .perm ∨ i = .sqz ∨ ∃ len, i = .start len) ∧
    (t.len ≠ s.len → ∃ len, i = .start len) ∧
    (t.window ≠ s.window → i = .perm ∨ ∃ len, i = .start len) ∧
    (t.pos ≠ s.pos → i ≠ .rdst ∧ i ≠ .rddg ∧ i ≠ .sqz) ∧
    (t.input ≠ s.input → ∃ len, i = .start len) ∧
    t.provider = s.provider ∧ t.lenw = s.lenw ∧ t.resetLine = s.resetLine

/-- `IN` is read only: whatever a step does, a byte of the bound buffer reads as before, unless a `START` was accepted or
reset asserted in that step. -/
def Obligations.TheRunsInputNeverChanges : Prop :=
  ∀ s t : State, step s = .next t → s.busy → s.resetLine.head? ≠ some true →
    ∀ off, t.input.read off = s.input.read off

/-- The bound buffer keeps the one form of memory, offsets strictly rising, in every step from every state. The form is
the model's own. -/
def Obligations.StepKeepsTheMemoryForm : Prop :=
  ∀ s t : State, s.input.wf = true → step s = .next t → t.input.wf = true

/-- The phase moves only along IDLE or DONE to ABSORB, where HOST has a `START` on the port, to SQUEEZE to DONE, or to IDLE
by reset. So a phase that `RDST` returned during a run is stale in that direction only, and a returned DONE stays true
until HOST issues a `START` or reset. -/
def Obligations.PhaseMovesOnlyForward : Prop :=
  ∀ s t : State, step s = .next t → t.phase ≠ s.phase →
    (t.phase = .idle ∧ ∃ rest, s.resetLine = true :: rest) ∨
    (t.phase = .absorb ∧ (s.phase = .idle ∨ s.phase = .done) ∧
      ∃ w buffer rest len, s.host = .transact w buffer :: rest ∧ decodeWord w = .ok (.start len)) ∨
    (t.phase = .squeeze ∧ s.phase = .absorb) ∨
    (t.phase = .done ∧ s.phase = .squeeze)

/-! ## The invariant of a run -/

/-- The machine right after reset meets the invariant. -/
def Obligations.ResetMeetsTheRunInvariant : Prop :=
  State.reset.RunInv

/-- Every step keeps the invariant, whoever takes it: at each point of a run `S` holds what the bytes absorbed so far make
of it, and in DONE `D` holds the digest of the run's input. -/
def Obligations.StepKeepsTheRunInvariant : Prop :=
  ∀ s t : State, s.RunInv → step s = .next t → t.RunInv

/-- No step stops: wherever the invariant holds, a step answers a next state. The invariant allows an `RDDG` outside DONE,
a `START` too long or a reserved word on the port; such a transaction is refused, and that the step turns the refusal into
the mark and answers next is the model's choice (log entry 6). -/
def Obligations.EveryStepAnswersNext : Prop :=
  ∀ s : State, s.RunInv → ∃ t, step s = .next t

/-- A digest that HOST is given is the digest of the run's input, and of nothing else. -/
def Obligations.EveryDigestReturnedIsTheRunsDigest : Prop :=
  ∀ (s t : State) (d : Digest), s.RunInv → step s = .next t → t.replies = s.replies ++ [.digest d] →
    ∃ m, s.runsOn m ∧ d = keccak256 s.provider.apply m

/-- In a run with HOST silent, each step is one of the engine's, and the steps still to come are one fewer after it. -/
def Obligations.EachEngineStepBringsTheEndNearer : Prop :=
  ∀ s : State, s.RunInv → s.busy → s.quiet →
    ∃ t, step s = .next t ∧ t.remainingSteps + 1 = s.remainingSteps

/-! ## Whole computations -/

/-- `START(L)` accepted from IDLE or DONE, from any earlier history: after `137*NW + 1` steps of the engine, and not
before, the phase is DONE, and `D` is the digest of the input. -/
def Obligations.RunComputesTheDigest : Prop :=
  ∀ (s : State) (m : List Byte), s.phase = .idle ∨ s.phase = .done → lengthFits s.lenw m.length = true →
    s.resetLine = [] → s.host = [.transact (encodeWord (.start m.length)) m] →
    (∃ t, core.run (1 + (137 * windowCount m.length + 1)) s = .next t ∧ t.phase = .done ∧
      t.digest = some (keccak256 s.provider.apply m) ∧ t.len = m.length ∧ t.window = m.length / 136 ∧
      t.pos = 136) ∧
    (∀ n t, n < 137 * windowCount m.length + 1 → core.run (1 + n) s = .next t → t.phase ≠ .done)

/-- The external events of a run, in order: the accepted `START`, the `IN` reads at offsets 0, 1, ... each once, a
permutation call at the end of each window, and the digest. -/
def Obligations.RunEventsComeInOrder : Prop :=
  (∀ (s : State) (m : List Byte), s.phase = .idle ∨ s.phase = .done → lengthFits s.lenw m.length = true →
    s.resetLine = [] → s.host = [.transact (encodeWord (.start m.length)) m] →
    ∃ t, core.run (1 + (137 * windowCount m.length + 1)) s = .next t ∧
      t.events = s.events ++ runEvents m.length) ∧
  (∀ len, (runEvents len).filter (fun e => match e with | .inRead _ => true | _ => false) =
      (List.range len).map Event.inRead ∧
    (runEvents len).count .permCall = len / 136 + 1)

/-- The operations of a run are those of the pseudo-operation `HASH`, whatever `S` and the input hold, and each occurs as
often as the table of R128 says. -/
def Obligations.RunPerformsTheCountedOperations : Prop :=
  (∀ (s : State) (m : List Byte), s.quiet → s.phase = .absorb → s.window = 0 → s.pos = 0 → s.runsOn m →
    engineTrace (137 * windowCount m.length + 1) s = engineOps m.length) ∧
  (∀ len r, r = len % 136 →
    (engineOps len).count .absb = len ∧
    (engineOps len).count .pads = (if r ≤ 134 then 1 else 0) ∧
    (engineOps len).count .padb = (if r = 135 then 1 else 0) ∧
    (engineOps len).count .pade = (if r ≤ 134 then 1 else 0) ∧
    (engineOps len).count .skip = (if r ≤ 134 then 134 - r else 0) ∧
    (engineOps len).count .perm = len / 136 + 1 ∧
    (engineOps len).count .sqz = 1 ∧
    (engineOps len).length = 137 * (len / 136 + 1) + 1)

/-- A run leaves no trace of what came before it: two machines with the same provider that accept the same `START` end with
the same digest, whatever their phases, registers and histories. -/
def Obligations.DigestDependsOnTheInputAlone : Prop :=
  ∀ (s u : State) (m : List Byte), ¬ s.busy → ¬ u.busy → s.provider = u.provider →
    lengthFits s.lenw m.length = true → lengthFits u.lenw m.length = true → s.resetLine = [] → u.resetLine = [] →
    s.host = [.transact (encodeWord (.start m.length)) m] → u.host = [.transact (encodeWord (.start m.length)) m] →
    ∃ t v d, core.run (137 * windowCount m.length + 2) s = .next t ∧
      core.run (137 * windowCount m.length + 2) u = .next v ∧ t.digest = some d ∧ v.digest = some d

/-- The bytes the positions of a run receive, in order, are the padded message: `M`, then between 1 and 136 bytes of
padding, to a whole number of windows. -/
def Obligations.PositionsReceiveThePaddedMessage : Prop :=
  ∀ m : List Byte,
    paddedMessage m = (List.range (136 * windowCount m.length)).map (paddedByte m) ∧
    (paddedMessage m).length = 136 * windowCount m.length ∧
    m.length < (paddedMessage m).length ∧ (paddedMessage m).length ≤ m.length + 136 ∧ m <+: paddedMessage m

/-- The padding is injective: the input is recovered from the padded message, so distinct inputs have distinct ones. -/
def Obligations.PaddingIsInjective : Prop :=
  (∀ m : List Byte, unpad (paddedMessage m) = m) ∧ Function.Injective paddedMessage

/-- An input whose length is a multiple of the rate, zero among them, gets a final window of its own: it holds no input
byte, and over the state that window is entered with, it changes exactly bit 0 of `S[0]` and bit 63 of `S[16]`. -/
def Obligations.AllPaddingWindowChangesTwoBits : Prop :=
  ∀ (m : List Byte) (S : Lanes), m.length % 136 = 0 →
    136 * (windowCount m.length - 1) = m.length ∧
    (windowOps m.length (windowCount m.length - 1) = .pads :: List.replicate 134 .skip ++ [.pade, .perm]) ∧
    (∀ k < 25, lane (absorbPositions m (windowCount m.length - 1) 136 S) k =
      lane S k ^^^ (if k = 0 then 0x0000000000000001 else if k = 16 then 0x8000000000000000 else 0))

/-- The block form: XORing each block of the padded message as 17 little-endian lanes, the capacity lanes with 0, and
permuting, gives the same digest as the byte-serial steps. -/
def Obligations.BlockFormGivesTheSameDigest : Prop :=
  ∀ (f : Lanes → Lanes) (m : List Byte),
    (∀ (w : Nat) (S : Lanes), w < windowCount m.length →
      absorbPositions m w 136 S = absorbBlock (((paddedMessage m).drop (136 * w)).take 136) S) ∧
    keccak256 f m = squeezedDigest (blockState f (paddedMessage m) (windowCount m.length))

/-- Order inside a window is not observable: the 136 XORs of a window in any order leave the same state. -/
def Obligations.OrderInsideAWindowIsNotObservable : Prop :=
  ∀ (m : List Byte) (w : Nat) (S : Lanes) (order : List Nat), order.Perm (List.range 136) →
    order.foldl (fun T i => xorb T i (paddedByte m (136 * w + i))) S = absorbPositions m w 136 S
end

