-- ==== Sys2Proof/Laws/State.lean ====
section
/-! SUPPORT. One lemma per field per update of the state, so that no later proof unfolds a record update. -/

namespace Sys2Proof.Machine

/-! `State.xorAtPos` -/

@[simp] theorem State.xorAtPos_lanes (s : State) (b : Byte) : (s.xorAtPos b).lanes = xorb s.lanes s.pos.toNat b := rfl
@[simp] theorem State.xorAtPos_digest (s : State) (b : Byte) : (s.xorAtPos b).digest = s.digest := rfl
@[simp] theorem State.xorAtPos_phase (s : State) (b : Byte) : (s.xorAtPos b).phase = s.phase := rfl
@[simp] theorem State.xorAtPos_len (s : State) (b : Byte) : (s.xorAtPos b).len = s.len := rfl
@[simp] theorem State.xorAtPos_window (s : State) (b : Byte) : (s.xorAtPos b).window = s.window := rfl
@[simp] theorem State.xorAtPos_pos (s : State) (b : Byte) : (s.xorAtPos b).pos = s.pos := rfl
@[simp] theorem State.xorAtPos_input (s : State) (b : Byte) : (s.xorAtPos b).input = s.input := rfl
@[simp] theorem State.xorAtPos_provider (s : State) (b : Byte) : (s.xorAtPos b).provider = s.provider := rfl
@[simp] theorem State.xorAtPos_lenw (s : State) (b : Byte) : (s.xorAtPos b).lenw = s.lenw := rfl
@[simp] theorem State.xorAtPos_resetLine (s : State) (b : Byte) : (s.xorAtPos b).resetLine = s.resetLine := rfl
@[simp] theorem State.xorAtPos_host (s : State) (b : Byte) : (s.xorAtPos b).host = s.host := rfl
@[simp] theorem State.xorAtPos_replies (s : State) (b : Byte) : (s.xorAtPos b).replies = s.replies := rfl
@[simp] theorem State.xorAtPos_events (s : State) (b : Byte) : (s.xorAtPos b).events = s.events := rfl

/-! `State.advancePos` -/

@[simp] theorem State.advancePos_lanes (s : State) : (s.advancePos).lanes = s.lanes := rfl
@[simp] theorem State.advancePos_digest (s : State) : (s.advancePos).digest = s.digest := rfl
@[simp] theorem State.advancePos_phase (s : State) : (s.advancePos).phase = s.phase := rfl
@[simp] theorem State.advancePos_len (s : State) : (s.advancePos).len = s.len := rfl
@[simp] theorem State.advancePos_window (s : State) : (s.advancePos).window = s.window := rfl
@[simp] theorem State.advancePos_pos (s : State) : (s.advancePos).pos = s.pos + 1 := rfl
@[simp] theorem State.advancePos_input (s : State) : (s.advancePos).input = s.input := rfl
@[simp] theorem State.advancePos_provider (s : State) : (s.advancePos).provider = s.provider := rfl
@[simp] theorem State.advancePos_lenw (s : State) : (s.advancePos).lenw = s.lenw := rfl
@[simp] theorem State.advancePos_resetLine (s : State) : (s.advancePos).resetLine = s.resetLine := rfl
@[simp] theorem State.advancePos_host (s : State) : (s.advancePos).host = s.host := rfl
@[simp] theorem State.advancePos_replies (s : State) : (s.advancePos).replies = s.replies := rfl
@[simp] theorem State.advancePos_events (s : State) : (s.advancePos).events = s.events := rfl

/-! `State.note` -/

@[simp] theorem State.note_lanes (s : State) (e : Event) : (s.note e).lanes = s.lanes := rfl
@[simp] theorem State.note_digest (s : State) (e : Event) : (s.note e).digest = s.digest := rfl
@[simp] theorem State.note_phase (s : State) (e : Event) : (s.note e).phase = s.phase := rfl
@[simp] theorem State.note_len (s : State) (e : Event) : (s.note e).len = s.len := rfl
@[simp] theorem State.note_window (s : State) (e : Event) : (s.note e).window = s.window := rfl
@[simp] theorem State.note_pos (s : State) (e : Event) : (s.note e).pos = s.pos := rfl
@[simp] theorem State.note_input (s : State) (e : Event) : (s.note e).input = s.input := rfl
@[simp] theorem State.note_provider (s : State) (e : Event) : (s.note e).provider = s.provider := rfl
@[simp] theorem State.note_lenw (s : State) (e : Event) : (s.note e).lenw = s.lenw := rfl
@[simp] theorem State.note_resetLine (s : State) (e : Event) : (s.note e).resetLine = s.resetLine := rfl
@[simp] theorem State.note_host (s : State) (e : Event) : (s.note e).host = s.host := rfl
@[simp] theorem State.note_replies (s : State) (e : Event) : (s.note e).replies = s.replies := rfl
@[simp] theorem State.note_events (s : State) (e : Event) : (s.note e).events = s.events ++ [e] := rfl

/-! `State.leavePort` -/

@[simp] theorem State.leavePort_lanes (s : State) : (s.leavePort).lanes = s.lanes := rfl
@[simp] theorem State.leavePort_digest (s : State) : (s.leavePort).digest = s.digest := rfl
@[simp] theorem State.leavePort_phase (s : State) : (s.leavePort).phase = s.phase := rfl
@[simp] theorem State.leavePort_len (s : State) : (s.leavePort).len = s.len := rfl
@[simp] theorem State.leavePort_window (s : State) : (s.leavePort).window = s.window := rfl
@[simp] theorem State.leavePort_pos (s : State) : (s.leavePort).pos = s.pos := rfl
@[simp] theorem State.leavePort_input (s : State) : (s.leavePort).input = s.input := rfl
@[simp] theorem State.leavePort_provider (s : State) : (s.leavePort).provider = s.provider := rfl
@[simp] theorem State.leavePort_lenw (s : State) : (s.leavePort).lenw = s.lenw := rfl
@[simp] theorem State.leavePort_resetLine (s : State) : (s.leavePort).resetLine = s.resetLine := rfl
@[simp] theorem State.leavePort_host (s : State) : (s.leavePort).host = s.host.tail := rfl
@[simp] theorem State.leavePort_replies (s : State) : (s.leavePort).replies = s.replies := rfl
@[simp] theorem State.leavePort_events (s : State) : (s.leavePort).events = s.events := rfl

/-! `State.reply` -/

@[simp] theorem State.reply_lanes (s : State) (r : Reply) : (s.reply r).lanes = s.lanes := rfl
@[simp] theorem State.reply_digest (s : State) (r : Reply) : (s.reply r).digest = s.digest := rfl
@[simp] theorem State.reply_phase (s : State) (r : Reply) : (s.reply r).phase = s.phase := rfl
@[simp] theorem State.reply_len (s : State) (r : Reply) : (s.reply r).len = s.len := rfl
@[simp] theorem State.reply_window (s : State) (r : Reply) : (s.reply r).window = s.window := rfl
@[simp] theorem State.reply_pos (s : State) (r : Reply) : (s.reply r).pos = s.pos := rfl
@[simp] theorem State.reply_input (s : State) (r : Reply) : (s.reply r).input = s.input := rfl
@[simp] theorem State.reply_provider (s : State) (r : Reply) : (s.reply r).provider = s.provider := rfl
@[simp] theorem State.reply_lenw (s : State) (r : Reply) : (s.reply r).lenw = s.lenw := rfl
@[simp] theorem State.reply_resetLine (s : State) (r : Reply) : (s.reply r).resetLine = s.resetLine := rfl
@[simp] theorem State.reply_host (s : State) (r : Reply) : (s.reply r).host = s.host.tail := rfl
@[simp] theorem State.reply_replies (s : State) (r : Reply) : (s.reply r).replies = s.replies ++ [r] := rfl
@[simp] theorem State.reply_events (s : State) (r : Reply) : (s.reply r).events = s.events := rfl

/-! `State.refuseTransaction` -/

@[simp] theorem State.refuseTransaction_lanes (s : State) (r : Refusal) : (s.refuseTransaction r).lanes = s.lanes := rfl
@[simp] theorem State.refuseTransaction_digest (s : State) (r : Refusal) : (s.refuseTransaction r).digest = s.digest := rfl
@[simp] theorem State.refuseTransaction_phase (s : State) (r : Refusal) : (s.refuseTransaction r).phase = s.phase := rfl
@[simp] theorem State.refuseTransaction_len (s : State) (r : Refusal) : (s.refuseTransaction r).len = s.len := rfl
@[simp] theorem State.refuseTransaction_window (s : State) (r : Refusal) : (s.refuseTransaction r).window = s.window := rfl
@[simp] theorem State.refuseTransaction_pos (s : State) (r : Refusal) : (s.refuseTransaction r).pos = s.pos := rfl
@[simp] theorem State.refuseTransaction_input (s : State) (r : Refusal) : (s.refuseTransaction r).input = s.input := rfl
@[simp] theorem State.refuseTransaction_provider (s : State) (r : Refusal) : (s.refuseTransaction r).provider = s.provider := rfl
@[simp] theorem State.refuseTransaction_lenw (s : State) (r : Refusal) : (s.refuseTransaction r).lenw = s.lenw := rfl
@[simp] theorem State.refuseTransaction_resetLine (s : State) (r : Refusal) : (s.refuseTransaction r).resetLine = s.resetLine := rfl
@[simp] theorem State.refuseTransaction_host (s : State) (r : Refusal) : (s.refuseTransaction r).host = s.host.tail := rfl
@[simp] theorem State.refuseTransaction_replies (s : State) (r : Refusal) : (s.refuseTransaction r).replies = s.replies ++ [.refused r] := rfl
@[simp] theorem State.refuseTransaction_events (s : State) (r : Refusal) : (s.refuseTransaction r).events = s.events := rfl

/-! `State.assertReset` -/

@[simp] theorem State.assertReset_lanes (s : State) : (s.assertReset).lanes = zeroLanes := rfl
@[simp] theorem State.assertReset_digest (s : State) : (s.assertReset).digest = none := rfl
@[simp] theorem State.assertReset_phase (s : State) : (s.assertReset).phase = .idle := rfl
@[simp] theorem State.assertReset_len (s : State) : (s.assertReset).len = 0 := rfl
@[simp] theorem State.assertReset_window (s : State) : (s.assertReset).window = 0 := rfl
@[simp] theorem State.assertReset_pos (s : State) : (s.assertReset).pos = 0 := rfl
@[simp] theorem State.assertReset_input (s : State) : (s.assertReset).input = [] := rfl
@[simp] theorem State.assertReset_provider (s : State) : (s.assertReset).provider = s.provider := rfl
@[simp] theorem State.assertReset_lenw (s : State) : (s.assertReset).lenw = s.lenw := rfl
@[simp] theorem State.assertReset_resetLine (s : State) : (s.assertReset).resetLine = s.resetLine := rfl
@[simp] theorem State.assertReset_host (s : State) : (s.assertReset).host = s.host := rfl
@[simp] theorem State.assertReset_replies (s : State) : (s.assertReset).replies = s.replies := rfl
@[simp] theorem State.assertReset_events (s : State) : (s.assertReset).events = s.events := rfl

/-! `State.beginRun` -/

@[simp] theorem State.beginRun_lanes (s : State) (n : Nat) : (s.beginRun n).lanes = zeroLanes := rfl
@[simp] theorem State.beginRun_digest (s : State) (n : Nat) : (s.beginRun n).digest = none := rfl
@[simp] theorem State.beginRun_phase (s : State) (n : Nat) : (s.beginRun n).phase = .absorb := rfl
@[simp] theorem State.beginRun_len (s : State) (n : Nat) : (s.beginRun n).len = n := rfl
@[simp] theorem State.beginRun_window (s : State) (n : Nat) : (s.beginRun n).window = 0 := rfl
@[simp] theorem State.beginRun_pos (s : State) (n : Nat) : (s.beginRun n).pos = 0 := rfl
@[simp] theorem State.beginRun_input (s : State) (n : Nat) : (s.beginRun n).input = Memory.ofBytes (s.offered.take n) := rfl
@[simp] theorem State.beginRun_provider (s : State) (n : Nat) : (s.beginRun n).provider = s.provider := rfl
@[simp] theorem State.beginRun_lenw (s : State) (n : Nat) : (s.beginRun n).lenw = s.lenw := rfl
@[simp] theorem State.beginRun_resetLine (s : State) (n : Nat) : (s.beginRun n).resetLine = s.resetLine := rfl
@[simp] theorem State.beginRun_host (s : State) (n : Nat) : (s.beginRun n).host = s.host := rfl
@[simp] theorem State.beginRun_replies (s : State) (n : Nat) : (s.beginRun n).replies = s.replies := rfl
@[simp] theorem State.beginRun_events (s : State) (n : Nat) : (s.beginRun n).events = s.events := rfl

/-! `State.permuteLanes` -/

@[simp] theorem State.permuteLanes_lanes (s : State) : (s.permuteLanes).lanes = s.provider.apply s.lanes := rfl
@[simp] theorem State.permuteLanes_digest (s : State) : (s.permuteLanes).digest = s.digest := rfl
@[simp] theorem State.permuteLanes_phase (s : State) : (s.permuteLanes).phase = s.phase := rfl
@[simp] theorem State.permuteLanes_len (s : State) : (s.permuteLanes).len = s.len := rfl
@[simp] theorem State.permuteLanes_window (s : State) : (s.permuteLanes).window = s.window := rfl
@[simp] theorem State.permuteLanes_pos (s : State) : (s.permuteLanes).pos = s.pos := rfl
@[simp] theorem State.permuteLanes_input (s : State) : (s.permuteLanes).input = s.input := rfl
@[simp] theorem State.permuteLanes_provider (s : State) : (s.permuteLanes).provider = s.provider := rfl
@[simp] theorem State.permuteLanes_lenw (s : State) : (s.permuteLanes).lenw = s.lenw := rfl
@[simp] theorem State.permuteLanes_resetLine (s : State) : (s.permuteLanes).resetLine = s.resetLine := rfl
@[simp] theorem State.permuteLanes_host (s : State) : (s.permuteLanes).host = s.host := rfl
@[simp] theorem State.permuteLanes_replies (s : State) : (s.permuteLanes).replies = s.replies := rfl
@[simp] theorem State.permuteLanes_events (s : State) : (s.permuteLanes).events = s.events := rfl

/-! `State.passReset` -/

@[simp] theorem State.passReset_lanes (s : State) : (s.passReset).lanes = s.lanes := rfl
@[simp] theorem State.passReset_digest (s : State) : (s.passReset).digest = s.digest := rfl
@[simp] theorem State.passReset_phase (s : State) : (s.passReset).phase = s.phase := rfl
@[simp] theorem State.passReset_len (s : State) : (s.passReset).len = s.len := rfl
@[simp] theorem State.passReset_window (s : State) : (s.passReset).window = s.window := rfl
@[simp] theorem State.passReset_pos (s : State) : (s.passReset).pos = s.pos := rfl
@[simp] theorem State.passReset_input (s : State) : (s.passReset).input = s.input := rfl
@[simp] theorem State.passReset_provider (s : State) : (s.passReset).provider = s.provider := rfl
@[simp] theorem State.passReset_lenw (s : State) : (s.passReset).lenw = s.lenw := rfl
@[simp] theorem State.passReset_resetLine (s : State) : (s.passReset).resetLine = s.resetLine.tail := rfl
@[simp] theorem State.passReset_host (s : State) : (s.passReset).host = s.host := rfl
@[simp] theorem State.passReset_replies (s : State) : (s.passReset).replies = s.replies := rfl
@[simp] theorem State.passReset_events (s : State) : (s.passReset).events = s.events := rfl

/-! `State.endWindow`, by whether the window is the final one -/

@[simp] theorem State.endWindow_lanes (s : State) : s.endWindow.lanes = s.lanes := by
  unfold State.endWindow; split <;> rfl
@[simp] theorem State.endWindow_digest (s : State) : s.endWindow.digest = s.digest := by
  unfold State.endWindow; split <;> rfl
@[simp] theorem State.endWindow_phase (s : State) :
    s.endWindow.phase = if s.window = s.len / 136 then .squeeze else s.phase := by
  unfold State.endWindow; split <;> rfl
@[simp] theorem State.endWindow_len (s : State) : s.endWindow.len = s.len := by
  unfold State.endWindow; split <;> rfl
@[simp] theorem State.endWindow_window (s : State) :
    s.endWindow.window = if s.window = s.len / 136 then s.window else s.window + 1 := by
  unfold State.endWindow; split <;> rfl
@[simp] theorem State.endWindow_pos (s : State) :
    s.endWindow.pos = if s.window = s.len / 136 then s.pos else 0 := by
  unfold State.endWindow; split <;> rfl
@[simp] theorem State.endWindow_input (s : State) : s.endWindow.input = s.input := by
  unfold State.endWindow; split <;> rfl
@[simp] theorem State.endWindow_provider (s : State) : s.endWindow.provider = s.provider := by
  unfold State.endWindow; split <;> rfl
@[simp] theorem State.endWindow_lenw (s : State) : s.endWindow.lenw = s.lenw := by
  unfold State.endWindow; split <;> rfl
@[simp] theorem State.endWindow_resetLine (s : State) : s.endWindow.resetLine = s.resetLine := by
  unfold State.endWindow; split <;> rfl
@[simp] theorem State.endWindow_host (s : State) : s.endWindow.host = s.host := by
  unfold State.endWindow; split <;> rfl
@[simp] theorem State.endWindow_replies (s : State) : s.endWindow.replies = s.replies := by
  unfold State.endWindow; split <;> rfl
@[simp] theorem State.endWindow_events (s : State) : s.endWindow.events = s.events := by
  unfold State.endWindow; split <;> rfl

/-! `State.passIdle`: only the port can change -/

theorem State.passIdle_eq (s : State) : ∃ h, s.passIdle = { s with host := h } := by
  unfold State.passIdle; split <;> exact ⟨_, rfl⟩

@[simp] theorem State.passIdle_lanes (s : State) : s.passIdle.lanes = s.lanes := by
  obtain ⟨h, hs⟩ := s.passIdle_eq; rw [hs]
@[simp] theorem State.passIdle_digest (s : State) : s.passIdle.digest = s.digest := by
  obtain ⟨h, hs⟩ := s.passIdle_eq; rw [hs]
@[simp] theorem State.passIdle_phase (s : State) : s.passIdle.phase = s.phase := by
  obtain ⟨h, hs⟩ := s.passIdle_eq; rw [hs]
@[simp] theorem State.passIdle_len (s : State) : s.passIdle.len = s.len := by
  obtain ⟨h, hs⟩ := s.passIdle_eq; rw [hs]
@[simp] theorem State.passIdle_window (s : State) : s.passIdle.window = s.window := by
  obtain ⟨h, hs⟩ := s.passIdle_eq; rw [hs]
@[simp] theorem State.passIdle_pos (s : State) : s.passIdle.pos = s.pos := by
  obtain ⟨h, hs⟩ := s.passIdle_eq; rw [hs]
@[simp] theorem State.passIdle_input (s : State) : s.passIdle.input = s.input := by
  obtain ⟨h, hs⟩ := s.passIdle_eq; rw [hs]
@[simp] theorem State.passIdle_provider (s : State) : s.passIdle.provider = s.provider := by
  obtain ⟨h, hs⟩ := s.passIdle_eq; rw [hs]
@[simp] theorem State.passIdle_lenw (s : State) : s.passIdle.lenw = s.lenw := by
  obtain ⟨h, hs⟩ := s.passIdle_eq; rw [hs]
@[simp] theorem State.passIdle_resetLine (s : State) : s.passIdle.resetLine = s.resetLine := by
  obtain ⟨h, hs⟩ := s.passIdle_eq; rw [hs]
@[simp] theorem State.passIdle_replies (s : State) : s.passIdle.replies = s.replies := by
  obtain ⟨h, hs⟩ := s.passIdle_eq; rw [hs]
@[simp] theorem State.passIdle_events (s : State) : s.passIdle.events = s.events := by
  obtain ⟨h, hs⟩ := s.passIdle_eq; rw [hs]

end Sys2Proof.Machine
end

