-- ==== Sys2Proof/Laws/Ops.lean ====
section
/-! SUPPORT. What each shared operation over the state buffer, the digest and the input space does, said once. -/

namespace Sys2Proof.Machine

/-! Lanes -/

theorem lane_of_lt (S : Lanes) {k : Nat} (h : k < 25) : lane S k = S[k] := by
  simp [lane, h]

@[simp] theorem lane_ofFn (f : Fin 25 → Lane) {k : Nat} (h : k < 25) : lane (Vector.ofFn f) k = f ⟨k, h⟩ := by
  simp [lane, h]

@[simp] theorem lane_zeroLanes (k : Nat) : lane zeroLanes k = 0 := by
  unfold lane zeroLanes
  by_cases h : k < 25 <;> simp [h]

/-- Two state buffers with the same 25 lanes are the same. -/
theorem lanes_ext {S T : Lanes} (h : ∀ k < 25, lane S k = lane T k) : S = T := by
  ext k hk : 1
  rw [← lane_of_lt S hk, ← lane_of_lt T hk, h k hk]

/-- What `XORB` does to each lane (R75): the lane of the position takes the byte, every other lane is unchanged. -/
theorem lane_xorb (S : Lanes) (i : Nat) (b : Byte) {k : Nat} (h : k < 25) :
    lane (xorb S i b) k = if k = i / 8 then lane S k ^^^ byteInLane i b else lane S k := by
  unfold xorb
  by_cases hk : k = i / 8
  · subst hk; simp [lane, h]
  · have : i / 8 ≠ k := fun e => hk e.symm
    simp [lane, this, hk]

/-- Bit `j` of a placed byte: the bits `sh` to `sh + 7` hold the byte, the others are 0 (R55). -/
theorem getLsbD_byteInLane (i : Nat) (b : Byte) (j : Nat) :
    (byteInLane i b).getLsbD j =
      (decide (8 * (i % 8) ≤ j ∧ j < 8 * (i % 8) + 8) && b.getLsbD (j - 8 * (i % 8))) := by
  unfold byteInLane
  have hb : ∀ n, 8 ≤ n → b.getLsbD n = false := fun n hn => BitVec.getLsbD_of_ge _ _ hn
  simp only [BitVec.getLsbD_shiftLeft, BitVec.getLsbD_setWidth]
  by_cases h1 : 8 * (i % 8) ≤ j <;> by_cases h2 : j < 8 * (i % 8) + 8
  · have : j < 64 := by omega
    have : j - 8 * (i % 8) < 64 := by omega
    simp [*]
  · have := hb (j - 8 * (i % 8)) (by omega)
    simp [*]
  · simp [h1]
  · simp [h1]

@[simp] theorem byteInLane_zero (i : Nat) : byteInLane i 0#8 = 0#64 := by
  ext j hj; simp [← BitVec.getLsbD_eq_getElem, getLsbD_byteInLane]

theorem byteInLane_xor (i : Nat) (a b : Byte) : byteInLane i (a ^^^ b) = byteInLane i a ^^^ byteInLane i b := by
  ext j hj
  simp only [← BitVec.getLsbD_eq_getElem, getLsbD_byteInLane, BitVec.getLsbD_xor]
  cases decide (8 * (i % 8) ≤ j ∧ j < 8 * (i % 8) + 8) <;> simp

/-- Bit `j` of a state byte is the lane's bit at the byte's place (R12). -/
theorem getLsbD_stateByte (S : Lanes) (i j : Nat) (h : j < 8) :
    (stateByte S i).getLsbD j = (lane S (i / 8)).getLsbD (8 * (i % 8) + j) := by
  simp [stateByte, BitVec.getLsbD_ushiftRight, h]

@[simp] theorem stateByte_zeroLanes (i : Nat) : stateByte zeroLanes i = 0 := by
  simp [stateByte]

/-! The digest -/

theorem squeezedDigest_get (S : Lanes) {j : Nat} (h : j < 32) : (squeezedDigest S)[j] = stateByte S j := by
  simp [squeezedDigest]

/-! The input space -/

theorem Memory.read_layOut (bs : List Byte) (a off : Nat) :
    (Memory.layOut a bs).read off = if a ≤ off then bs[off - a]? else none := by
  induction bs generalizing a with
  | nil => simp [Memory.layOut, Memory.read]
  | cons b bs ih =>
    unfold Memory.read at ih ⊢
    simp only [Memory.layOut, List.lookup_cons]
    by_cases h : off = a
    · simp [h]
    · have h' : (off == a) = false := by simp [h]
      rw [h', ih]
      by_cases h2 : a ≤ off
      · have h3 : a + 1 ≤ off := by omega
        obtain ⟨n, rfl⟩ : ∃ n, off = a + 1 + n := ⟨off - (a + 1), by omega⟩
        simp [show a + 1 + n - a = n + 1 by omega, show a ≤ a + 1 + n by omega]
      · simp [show ¬ a + 1 ≤ off by omega, h2]

theorem Memory.wf_layOut (bs : List Byte) (a : Nat) : (Memory.layOut a bs).wf = true := by
  induction bs generalizing a with
  | nil => rfl
  | cons b bs ih =>
    cases bs with
    | nil => rfl
    | cons c cs =>
      have := ih (a + 1)
      simp only [Memory.layOut, Memory.wf, Bool.and_eq_true, decide_eq_true_eq] at this ⊢
      exact ⟨by omega, this⟩

/-- Binding a buffer keeps the one form of memory. -/
theorem Memory.wf_ofBytes (bs : List Byte) : (Memory.ofBytes bs).wf = true :=
  Memory.wf_layOut bs 0

/-- Releasing a buffer keeps the one form of memory. -/
theorem Memory.wf_nil : Memory.wf [] = true := rfl

/-! Little-endian numbers -/

theorem leNat_lt (bs : List Byte) : leNat bs < 256 ^ bs.length := by
  induction bs with
  | nil => simp [leNat]
  | cons b bs ih =>
    have := b.isLt
    simp only [leNat, List.length_cons, Nat.pow_succ]
    omega

end Sys2Proof.Machine
end

