-- ==== Sys2Proof/Laws/KeccakF.lean ====
section
/-! SUPPORT. The matrix view of the state buffer (spec/42_permutation.md R105), said once. -/

namespace Sys2Proof.Machine

theorem matrixLane_mod (A : Lanes) (x y : Nat) : matrixLane A (x % 5) (y % 5) = matrixLane A x y := by
  simp [matrixLane]

/-- What a state built lane by lane of the matrix holds at a coordinate. -/
theorem matrixLane_ofMatrix (f : Nat → Nat → Lane) (x y : Nat) : matrixLane (ofMatrix f) x y = f (x % 5) (y % 5) := by
  unfold matrixLane ofMatrix
  rw [lane_ofFn _ (by omega)]
  congr 1 <;> dsimp only <;> omega

/-- Two states that agree at every coordinate are the same. -/
theorem lanes_ext_matrix {A B : Lanes} (h : ∀ x < 5, ∀ y < 5, matrixLane A x y = matrixLane B x y) : A = B := by
  refine lanes_ext fun k hk => ?_
  have := h (k % 5) (by omega) (k / 5) (by omega)
  have e : k % 5 % 5 + 5 * (k / 5 % 5) = k := by omega
  simpa only [matrixLane, e] using this

end Sys2Proof.Machine
end

