-- ==== Sys2Proof/Laws/Meanings.lean ====
section
/-! SUPPORT. What each meaning can do when it answers a next state, said once: the conditions it met and the state it left.
Later proofs cite these instead of unfolding a meaning. -/

namespace Sys2Proof.Machine

/-- A `START` that answers next was held, or was accepted. -/
theorem execStart_next {len : Nat} {s t : State} (h : execStart len s = .next t) :
    (s.busy ∧ t = s) ∨
    (¬ s.busy ∧ lengthFits s.lenw len = true ∧ t = (s.beginRun len).leavePort.note (.started len)) := by
  unfold execStart at h
  split at h
  · next hb => cases h; exact .inl ⟨hb, rfl⟩
  · next hb =>
    split at h
    · next hf => cases h; exact .inr ⟨hb, hf, rfl⟩
    · cases h

theorem execRdst_next {s t : State} (h : execRdst s = .next t) : t = s.reply (.phase s.phase.code) := by
  cases h; rfl

theorem execRddg_next {s t : State} (h : execRddg s = .next t) :
    ∃ d, s.phase = .done ∧ s.digest = some d ∧ t = s.reply (.digest d) := by
  unfold execRddg at h
  split at h
  · next d hp hd => cases h; exact ⟨d, hp, hd, rfl⟩
  · cases h

theorem execAbsb_next {s t : State} (h : execAbsb s = .next t) :
    ∃ b, s.selectsAbsb ∧ s.inputByte = some b ∧ t = (s.xorAtPos b).advancePos.note (.inRead s.offset) := by
  unfold execAbsb at h
  split at h
  · next hs =>
    split at h
    · next b hb => cases h; exact ⟨b, hs, hb, rfl⟩
    · cases h
  · cases h

theorem execPads_next {s t : State} (h : execPads s = .next t) :
    s.selectsPads ∧ t = (s.xorAtPos padStart).advancePos := by
  unfold execPads at h
  split at h
  · next hs => cases h; exact ⟨hs, rfl⟩
  · cases h

theorem execPade_next {s t : State} (h : execPade s = .next t) :
    s.selectsPade ∧ t = (s.xorAtPos padEnd).advancePos := by
  unfold execPade at h
  split at h
  · next hs => cases h; exact ⟨hs, rfl⟩
  · cases h

theorem execPadb_next {s t : State} (h : execPadb s = .next t) :
    s.selectsPadb ∧ t = ((s.xorAtPos padStart).xorAtPos padEnd).advancePos := by
  unfold execPadb at h
  split at h
  · next hs => cases h; exact ⟨hs, rfl⟩
  · cases h

theorem execSkip_next {s t : State} (h : execSkip s = .next t) : s.selectsSkip ∧ t = s.advancePos := by
  unfold execSkip at h
  split at h
  · next hs => cases h; exact ⟨hs, rfl⟩
  · cases h

theorem execPerm_next {s t : State} (h : execPerm s = .next t) :
    s.selectsPerm ∧ t = s.permuteLanes.endWindow.note .permCall := by
  unfold execPerm at h
  split at h
  · next hs => cases h; exact ⟨hs, rfl⟩
  · cases h

theorem execSqz_next {s t : State} (h : execSqz s = .next t) :
    s.selectsSqz ∧ t = { s with digest := some (squeezedDigest s.lanes), phase := .done }.note .digestReady := by
  unfold execSqz at h
  split at h
  · next hs => cases h; exact ⟨hs, rfl⟩
  · cases h

/-- No operation changes what the platform has connected, nor the reset input. -/
theorem exec_next_platform {i : Instr} {s t : State} (h : exec i s = .next t) :
    t.provider = s.provider ∧ t.lenw = s.lenw ∧ t.resetLine = s.resetLine := by
  cases i with
  | start len =>
    obtain ⟨-, rfl⟩ | ⟨-, -, rfl⟩ := execStart_next h <;> simp
  | rdst => obtain rfl := execRdst_next h; simp
  | rddg => obtain ⟨d, -, -, rfl⟩ := execRddg_next h; simp
  | absb => obtain ⟨b, -, -, rfl⟩ := execAbsb_next h; simp
  | pads => obtain ⟨-, rfl⟩ := execPads_next h; simp
  | pade => obtain ⟨-, rfl⟩ := execPade_next h; simp
  | padb => obtain ⟨-, rfl⟩ := execPadb_next h; simp
  | skip => obtain ⟨-, rfl⟩ := execSkip_next h; simp
  | perm => obtain ⟨-, rfl⟩ := execPerm_next h; simp
  | sqz => obtain ⟨-, rfl⟩ := execSqz_next h; simp

/-- The input buffer changes only when a `START` binds one (R21, R71). -/
theorem exec_next_input {i : Instr} {s t : State} (h : exec i s = .next t) :
    t.input = s.input ∨ ∃ bs, t.input = Memory.ofBytes bs := by
  cases i with
  | start len =>
    obtain ⟨-, rfl⟩ | ⟨-, -, rfl⟩ := execStart_next h
    · exact .inl rfl
    · exact .inr ⟨_, rfl⟩
  | rdst => obtain rfl := execRdst_next h; simp
  | rddg => obtain ⟨d, -, -, rfl⟩ := execRddg_next h; simp
  | absb => obtain ⟨b, -, -, rfl⟩ := execAbsb_next h; simp
  | pads => obtain ⟨-, rfl⟩ := execPads_next h; simp
  | pade => obtain ⟨-, rfl⟩ := execPade_next h; simp
  | padb => obtain ⟨-, rfl⟩ := execPadb_next h; simp
  | skip => obtain ⟨-, rfl⟩ := execSkip_next h; simp
  | perm => obtain ⟨-, rfl⟩ := execPerm_next h; simp
  | sqz => obtain ⟨-, rfl⟩ := execSqz_next h; simp

end Sys2Proof.Machine
end

