-- ==== Sys2Proof/Laws/PerInstr.lean ====
section
/-! SUPPORT. One fact about every operation as syntax, operation by operation. -/

namespace Sys2Proof.Laws

/-- Bit 3 of the code separates the codes of HOST (0) from those of the sequencer (1) (spec/92_eei_decisions.md D8), and a
U format operation has no operand field (R51). -/
abbrev Format.Statement (i : Instr) : Prop :=
  i.code.getLsbD 3 = !i.isHost ∧ (i.isHost = false → encodeWord i < 16)

theorem Format.start (len : Nat) : Format.Statement (.start len) := by simp [Format.Statement, Instr.code, Instr.isHost]
theorem Format.rdst : Format.Statement .rdst := by decide
theorem Format.rddg : Format.Statement .rddg := by decide
theorem Format.absb : Format.Statement .absb := by decide
theorem Format.pads : Format.Statement .pads := by decide
theorem Format.pade : Format.Statement .pade := by decide
theorem Format.padb : Format.Statement .padb := by decide
theorem Format.skip : Format.Statement .skip := by decide
theorem Format.perm : Format.Statement .perm := by decide
theorem Format.sqz : Format.Statement .sqz := by decide

end Sys2Proof.Laws
end

