-- ==== Sys2Proof/Laws/Step.lean ====
section
/-! SUPPORT. What the selection function and one step can do, said once. -/

namespace Sys2Proof.Machine

/-- What `Sel` gives is a micro-operation (R58). -/
theorem sel_not_host {p : Phase} {W I LEN : Nat} {i : Instr} (h : sel p W I LEN = some i) : i.isHost = false := by
  cases p <;> simp only [sel] at h
  · cases h
  · repeat' split at h
    all_goals cases h
    all_goals rfl
  · cases h; rfl
  · cases h

/-- What the port gives is a host transaction (R58). -/
theorem decodePort_host {w : Nat} {i : Instr} (h : decodePort w = .ok i) : i.isHost = true ∧ decodeWord w = .ok i := by
  unfold decodePort at h
  split at h
  · next j hj =>
    split at h
    · next hh => cases h; exact ⟨hh, hj⟩
    · cases h
  · cases h

/-- HOST has the step exactly with a host transaction on the port that is not held (R65, R67). -/
theorem State.turn_host {s : State} {i : Instr} (h : s.turn = .host i) :
    ∃ w buffer rest, s.host = .transact w buffer :: rest ∧ decodeWord w = .ok i ∧ i.isHost = true ∧
      s.holds i = false := by
  unfold State.turn at h
  split at h
  · next w buffer rest hh =>
    split at h
    · next j hj =>
      split at h
      · cases h
      · next hn =>
        cases h
        exact ⟨w, buffer, rest, hh, (decodePort_host hj).2, (decodePort_host hj).1, by simpa using hn⟩
    · cases h
  · cases h

/-- The engine has the step where HOST does nothing or its `START` is held (R53, R67). -/
theorem State.turn_engine {s : State} (h : s.turn = .engine) :
    s.host = [] ∨ (∃ rest, s.host = .idle :: rest) ∨
    ∃ w buffer rest i, s.host = .transact w buffer :: rest ∧ decodeWord w = .ok i ∧ s.holds i = true := by
  unfold State.turn at h
  split at h
  · next w buffer rest hh =>
    split at h
    · next j hj =>
      split at h
      · next hn => exact .inr (.inr ⟨w, buffer, rest, j, hh, (decodePort_host hj).2, hn⟩)
      · cases h
    · cases h
  · next hn =>
    cases hh : s.host with
    | nil => exact .inl rfl
    | cons m rest =>
      cases m with
      | idle => exact .inr (.inl ⟨rest, rfl⟩)
      | transact w buffer => exact absurd hh (hn w buffer rest)

/-- A settled outcome is the outcome itself, or the mark of a refused transaction. -/
theorem State.settle_next {s t : State} {o : Host.Outcome State Fault Refusal} (h : s.settle o = .next t) :
    o = .next t ∨ ∃ r, o = .refused r ∧ r.atPort = true ∧ t = s.refuseTransaction r := by
  unfold State.settle at h
  split at h
  · next r =>
    split at h
    · next hr => cases h; exact .inr ⟨r, rfl, hr, rfl⟩
    · cases h
  · exact .inl h

/-- The four ways a step answers next: reset, an operation's own effect (HOST's from the port, the engine's by `Sel`), a
transaction turned away, or nothing to do. -/
theorem step_next {s t : State} (h : step s = .next t) :
    (∃ rest, s.resetLine = true :: rest ∧ t = s.passReset.assertReset) ∨
    (∃ i, s.passReset.turn = .host i ∧ exec i s.passReset = .next t) ∨
    (∃ i, s.passReset.turn = .engine ∧ s.passReset.passIdle.sel = some i ∧
      exec i s.passReset.passIdle = .next t) ∨
    (∃ r, t = s.passReset.refuseTransaction r) ∨
    (s.passReset.turn = .engine ∧ s.passReset.passIdle.sel = none ∧ t = s.passReset.passIdle) := by
  unfold step State.advance at h
  split at h
  · next rest hr => cases h; exact .inl ⟨rest, hr, rfl⟩
  · unfold State.turnStep at h
    split at h
    · next i hi =>
      obtain h | ⟨r, -, -, rfl⟩ := State.settle_next h
      · exact .inr (.inl ⟨i, hi, h⟩)
      · exact .inr (.inr (.inr (.inl ⟨r, rfl⟩)))
    · next r hr => cases h; exact .inr (.inr (.inr (.inl ⟨r, rfl⟩)))
    · next ht =>
      unfold State.engineStep at h
      split at h
      · next i hi => exact .inr (.inr (.inl ⟨i, ht, hi, h⟩))
      · next hn => cases h; exact .inr (.inr (.inr (.inr ⟨ht, hn, rfl⟩)))

end Sys2Proof.Machine
end

