-- ==== Sys2Proof/Machine/Trace.lean ====
section
/-! DEFINITION. The trace notation of spec/30_encoding.md R60 and the digest as hexadecimal digits (spec/43_squeeze.md
R119). Text only: nothing in the machine reads it. -/

namespace Sys2Proof.Machine

/-- An operation as one line of a trace (R60). -/
def traceLine : Instr → String
  | .start len => "START " ++ toString len
  | .rdst => "RDST"
  | .rddg => "RDDG"
  | .absb => "ABSB"
  | .pads => "PADS"
  | .pade => "PADE"
  | .padb => "PADB"
  | .skip => "SKIP"
  | .perm => "PERM"
  | .sqz => "SQZ"

/-- One hexadecimal digit, capital as in the trace encoding of R60. -/
def hexDigit (n : Nat) : Char :=
  "0123456789ABCDEF".toList.getD n '?'

/-- One hexadecimal digit, small as in the digests of R119. -/
def hexDigitSmall (n : Nat) : Char :=
  "0123456789abcdef".toList.getD n '?'

/-- An operation in an encoded trace: its 4-bit code as one hexadecimal digit, `START` followed by its length in
parentheses (R60). -/
def traceCode (i : Instr) : List Char :=
  hexDigit i.code.toNat ::
    match i with
    | .start len => '(' :: (toString len).toList ++ [')']
    | _ => []

/-- A trace, encoded (R60). -/
def encodeTrace (ops : List Instr) : List Char :=
  ops.flatMap traceCode

/-- The name `RDST` returns, as a trace writes it (R60). -/
def phaseName : Phase → String
  | .idle => "IDLE"
  | .absorb => "ABSORB"
  | .squeeze => "SQUEEZE"
  | .done => "DONE"

/-- A digest as 64 hexadecimal digits, `D[0]` first (R119). -/
def digestHex (d : Digest) : List Char :=
  d.toList.flatMap fun b => [hexDigitSmall (b.toNat / 16), hexDigitSmall (b.toNat % 16)]

end Sys2Proof.Machine
end

