-- ==== Sys2Proof/Tests/Slice0.lean ====
section
/-! SUPPORT. Tests of the model. Every expected value is the spec's: the codes of spec/30_encoding.md R52 and the vectors of
spec/95_test_vectors.md (T, X, S numbers), or its worked examples, as each theorem's comment says. -/

namespace Sys2Proof.Tests

open Sys2Proof.Machine

/-! ## Helpers -/

/-- A state in the middle of a run: the reset state with the control registers, one lane and the input given. -/
def at_ (W : Nat) (I : BitVec 8) (LEN : Nat) (k : Nat := 0) (v : Lane := 0) (input : Memory := []) : State :=
  { State.reset with
    phase := .absorb, window := W, pos := I, len := LEN, input := input, provider := .identity
    lanes := zeroLanes.setIfInBounds k v }

/-- What a next state shows, `none` where the outcome is a fault or a refusal. -/
def shows {α : Type} (f : State → α) : Host.Outcome State Fault Refusal → Option α
  | .next t => some (f t)
  | _ => none

/-- Why an outcome was refused. -/
def refusedFor : Host.Outcome State Fault Refusal → Option Refusal
  | .refused r => some r
  | _ => none

/-- Lane `k` and the position after an outcome. -/
def laneAndPos (k : Nat) (o : Host.Outcome State Fault Refusal) : Option (Lane × BitVec 8) :=
  shows (fun t => (lane t.lanes k, t.pos)) o

/-- The control registers. -/
def control (t : State) : Phase × Nat × BitVec 8 × Nat :=
  (t.phase, t.window, t.pos, t.len)

/-- The registers of the block. -/
structure Block where
  lanes : Lanes
  digest : Option Digest
  phase : Phase
  len : Nat
  window : Nat
  pos : BitVec 8
  deriving DecidableEq

/-- The registers of the block in a state. -/
def block (t : State) : Block :=
  ⟨t.lanes, t.digest, t.phase, t.len, t.window, t.pos⟩

/-- The state with one word on the host port. -/
def onPort (s : State) (w : Nat) (buffer : List Byte := []) : State :=
  { s with host := [.transact w buffer] }

/-! ## WellFormed: the one check, met and not met (R51, R66; T54, T55) -/

theorem test_wf_refuses_a_length_too_long : (Instr.start 4294967296).wellFormed (some 32) = false := by decide
theorem test_wf_takes_the_longest_length : (Instr.start 4294967295).wellFormed (some 32) = true := by decide
theorem test_wf_unbounded : (Instr.start 4294967296).wellFormed none = true := by decide

/-! ## Decode: each word written out from R51 and R52, bits 3 to 0 last -/

theorem test_decode_start : decodeWord 0b11001000_0001 = .ok (.start 200) := by rfl
theorem test_decode_rdst : decodeWord 0b0010 = .ok .rdst := by rfl
theorem test_decode_rddg : decodeWord 0b0011 = .ok .rddg := by rfl
theorem test_decode_absb : decodeWord 0b1000 = .ok .absb := by rfl
theorem test_decode_pads : decodeWord 0b1001 = .ok .pads := by rfl
theorem test_decode_pade : decodeWord 0b1010 = .ok .pade := by rfl
theorem test_decode_padb : decodeWord 0b1011 = .ok .padb := by rfl
theorem test_decode_skip : decodeWord 0b1100 = .ok .skip := by rfl
theorem test_decode_perm : decodeWord 0b1101 = .ok .perm := by rfl
theorem test_decode_sqz : decodeWord 0b1110 = .ok .sqz := by rfl

/-- The reserved codes of R58. -/
theorem test_decode_reserved :
    [0x0, 0x4, 0x5, 0x6, 0x7, 0xF].map (decodeTableWord 8) = List.replicate 6 none := by decide

theorem test_encode_start : encodeWord (.start 3) = 0x31 := by decide

/-! ## XORB (T1, T2) -/

theorem test_xorb_places_the_byte :
    [0, 1, 7, 8, 63, 64, 134, 135].map (fun i => lane (xorb zeroLanes i 0xAB) (i / 8)) =
      [0x00000000000000AB, 0x000000000000AB00, 0xAB00000000000000, 0x00000000000000AB, 0xAB00000000000000,
       0x00000000000000AB, 0x00AB000000000000, 0xAB00000000000000] := by decide

theorem test_xorb_is_no_overwrite :
    lane (xorb (xorb (zeroLanes.setIfInBounds 0 0xFFFFFFFFFFFFFFFF) 0 0x01) 7 0x80) 0 = 0x7FFFFFFFFFFFFFFE := by decide

/-! ## Sel, branch by branch (T7) -/

theorem test_sel_outside_absorb :
    [sel .idle 0 0 0, sel .done 0 136 0, sel .squeeze 1 136 136] = [none, none, some .sqz] := by decide

theorem test_sel_first_window :
    [(0, 0), (1, 0), (134, 0), (135, 0), (136, 0), (0, 1), (1, 1), (134, 134), (135, 134), (135, 135), (135, 136)].map
        (fun c => sel .absorb 0 c.1 c.2) =
      [some .pads, some .skip, some .skip, some .pade, some .perm, some .absb, some .pads, some .pads, some .pade,
       some .padb, some .absb] := by decide

theorem test_sel_later_windows :
    [(1, 0, 136), (1, 1, 136), (1, 135, 136), (1, 0, 137), (1, 135, 271), (1, 135, 272), (7, 47, 1000),
     (7, 48, 1000), (7, 49, 1000)].map (fun c => sel .absorb c.1 c.2.1 c.2.2) =
      [some .pads, some .skip, some .pade, some .absb, some .padb, some .absb, some .absb, some .pads,
       some .skip] := by decide

/-! ## Position operations (T8 to T27) -/

/-- T10: the third byte of "abc". -/
theorem test_absb_third_byte :
    laneAndPos 0 (exec .absb (at_ 0 2 3 0 0x6261 (Memory.ofBytes [0x61, 0x62, 0x63]))) =
      some (0x0000000000636261, 3) := by decide

/-- T22: XOR can clear bits. -/
theorem test_absb_xors :
    laneAndPos 0 (exec .absb (at_ 0 5 200 0 0x0000FF0000000000 [(5, 0xFF)])) = some (0, 6) := by decide

/-- T11. -/
theorem test_pads : laneAndPos 0 (exec .pads (at_ 0 3 3 0 0x636261)) = some (0x0000000001636261, 4) := by decide

/-- T27: in a later window the marker is XORed onto what the permutation left. -/
theorem test_pads_later_window :
    laneAndPos 0 (exec .pads (at_ 1 1 137 0 0xC9834334D2362FA0)) = some (0xC9834334D2362EA0, 2) := by decide

/-- T18. -/
theorem test_pade :
    laneAndPos 16 (exec .pade (at_ 0 135 134 16 0x0001858483828180)) = some (0x8001858483828180, 136) := by decide

/-- T25. -/
theorem test_pade_later_window :
    laneAndPos 16 (exec .pade (at_ 1 135 136 16 0x6AA4E537E9AFEEA1)) = some (0xEAA4E537E9AFEEA1, 136) := by decide

/-- T19. -/
theorem test_padb :
    laneAndPos 16 (exec .padb (at_ 0 135 135 16 0x0086858483828180)) = some (0x8186858483828180, 136) := by decide

/-- T24: the skipped byte of a later window is not zeroed. -/
theorem test_skip :
    laneAndPos 0 (exec .skip (at_ 1 1 136 0 0xC9834334D2362F29)) = some (0xC9834334D2362F29, 2) := by decide

/-! ## PERM (T28 to T36, X9) -/

/-- T28, T30, T33, T34: final window or not. -/
theorem test_perm_control :
    [exec .perm (at_ 0 136 0), exec .perm (at_ 0 136 136), exec .perm (at_ 1 136 272), exec .perm (at_ 2 136 272)].map
        (shows control) =
      [some (.squeeze, 0, 136, 0), some (.absorb, 1, 0, 136), some (.absorb, 2, 0, 272),
       some (.squeeze, 2, 136, 272)] := by decide

/-- X9: every lane complemented, the capacity lanes too. -/
theorem test_perm_complement :
    shows (fun t => (lane t.lanes 0, lane t.lanes 24)) (exec .perm { at_ 0 136 0 0 1 with provider := .complement }) =
      some (0xFFFFFFFFFFFFFFFE, 0xFFFFFFFFFFFFFFFF) := by decide

/-- R112: the zero state after rounds 0 and 1. -/
theorem test_keccak_two_rounds :
    [0, 1, 3, 4, 6, 13, 18, 22, 24].map
        (lane ((roundConstants.take 2).foldl keccakRound zeroLanes)) =
      [0x0000000000008083, 0x0000100000000000, 0x0000000000000001, 0x0000100000008000, 0x0000200000200000,
       0x0000000000000202, 0x0000000010000000, 0x0000010000000004, 0x0000000000000004] := by decide +kernel

/-- T36: Keccak-f[1600] of the padded state of the empty input, lanes 0 to 3. -/
theorem test_keccak_empty_input :
    [0, 1, 2, 3].map (lane (keccakF1600 ((zeroLanes.setIfInBounds 0 1).setIfInBounds 16 0x8000000000000000))) =
      [0x3C23F7860146D2C5, 0xC003C7DCB27D7E92, 0x3B2782CA53B600E5, 0x70A4855D04D8FA7B] := by decide +kernel

/-- The generating rule of the offsets (R108), step `t` at coordinates `(x, y)`. -/
def offsetsFollowTheRule : Nat → Nat → Nat → Nat → Bool
  | 0, _, _, _ => true
  | n + 1, t, x, y =>
    (rhoOffsets.getD (x + 5 * y) 64 == (t + 1) * (t + 2) / 2 % 64) &&
      offsetsFollowTheRule n (t + 1) y ((2 * x + 3 * y) % 5)

theorem test_rho_offsets : rhoOffsets.getD 0 64 = 0 ∧ offsetsFollowTheRule 24 0 1 0 = true := by decide

/-- The generating rule of the round constants (R111): an 8-bit LFSR `x^8 + x^6 + x^5 + x^4 + 1`. -/
def lfsrStep (r : Nat) : Nat :=
  let r2 := 2 * r
  if r2 ≥ 256 then (r2 % 256) ^^^ 0x71 else r2

/-- The constants from the LFSR, seven steps a round. -/
def constantsByLfsr : Nat → Nat → List Nat
  | 0, _ => []
  | n + 1, r =>
    let rs := [r, lfsrStep r, lfsrStep (lfsrStep r), lfsrStep (lfsrStep (lfsrStep r)),
      lfsrStep (lfsrStep (lfsrStep (lfsrStep r))), lfsrStep (lfsrStep (lfsrStep (lfsrStep (lfsrStep r)))),
      lfsrStep (lfsrStep (lfsrStep (lfsrStep (lfsrStep (lfsrStep r)))))]
    ((List.range 7).map fun j => rs.getD j 0 % 2 * 2 ^ (2 ^ j - 1)).sum ::
      constantsByLfsr n (lfsrStep (rs.getD 6 0))

theorem test_round_constants : constantsByLfsr 24 1 = roundConstants.map BitVec.toNat := by decide +kernel

/-- R109: lane `k` moves to index `d(k)`. -/
theorem test_pi_table :
    (([0, 10, 20, 5, 15, 16, 1, 11, 21, 6, 7, 17, 2] ++ [12, 22, 23, 8, 18, 3, 13, 14, 24, 9, 19, 4]).map fun d =>
        lane (piStep (Vector.ofFn fun k => BitVec.ofNat 64 k.val)) d) =
      (List.range 25).map (BitVec.ofNat 64) := by decide +kernel

/-! ## SQZ (T38) -/

/-- The lanes of T38. -/
def t38 : State :=
  { State.reset with
    phase := .squeeze
    lanes := ((((zeroLanes.setIfInBounds 0 0x0706050403020100).setIfInBounds 1 0x0F0E0D0C0B0A0908).setIfInBounds 2
      0x1716151413121110).setIfInBounds 3 0x1F1E1D1C1B1A1918).setIfInBounds 4 0xFFFFFFFFFFFFFFFF }

theorem test_sqz :
    shows (fun t => (t.digest.map Vector.toList, t.phase)) (exec .sqz t38) =
      some (some ((List.range 32).map (BitVec.ofNat 8)), .done) := by decide +kernel

/-- R33: the digest as one word is lanes 3 to 0. -/
theorem test_digest_word :
    digestWord (squeezedDigest t38.lanes) =
      0x1F1E1D1C1B1A19181716151413121110_0F0E0D0C0B0A09080706050403020100 := by decide +kernel

/-! ## Host transactions and reset (T41 to T56) -/

/-- The state of T49 to T51: DONE, a digest, the registers of a finished run. -/
def doneState : State :=
  { State.reset with
    phase := .done, digest := some (Vector.replicate 32 0xC5), len := 3, pos := 136
    lanes := zeroLanes.setIfInBounds 0 7 }

/-- T43, T51: `START` from IDLE and from DONE. -/
theorem test_start :
    [exec (.start 0) State.reset, exec (.start 200) doneState].map (shows block) =
      [some ⟨zeroLanes, none, .absorb, 0, 0, 0⟩, some ⟨zeroLanes, none, .absorb, 200, 0, 0⟩] := by decide

/-- T46: held, and the engine has the step. -/
theorem test_start_held :
    shows (fun t => (control t, t.host)) (step (onPort (at_ 0 0 0) 0x51 [1, 2, 3, 4, 5])) =
      some ((.absorb, 0, 1, 0), [.transact 0x51 [1, 2, 3, 4, 5]]) := by decide

/-- T54: refused, the state unchanged, the mark given. -/
theorem test_start_too_long :
    shows (fun t => (block t, t.replies)) (step (onPort { State.reset with lenw := some 32 } 0x1000000001)) =
      some (block State.reset, [.refused .lengthTooLarge]) := by decide

/-- T41, T44, T47, T49. -/
theorem test_rdst :
    [exec .rdst State.reset, exec .rdst (at_ 0 3 3), exec .rdst t38, exec .rdst doneState].map
        (shows State.replies) =
      [some [.phase 0], some [.phase 1], some [.phase 2], some [.phase 3]] := by decide

/-- T50. -/
theorem test_rddg :
    shows (fun t => (block t, t.replies)) (step (onPort doneState 0x3)) =
      some (block doneState, [.digest (Vector.replicate 32 0xC5)]) := by decide

/-- T42, T45, T48. -/
theorem test_rddg_refused :
    [exec .rddg State.reset, exec .rddg (at_ 0 3 3), exec .rddg t38].map refusedFor =
      List.replicate 3 (some .digestNotValid) := by decide

/-- T52, T53: a reserved code and a micro-operation code on the host port. -/
theorem test_reserved_on_port :
    [0x0, 0x4, 0xF, 0x8, 0xE].map (fun w => shows (fun t => (block t, t.replies)) (step (onPort doneState w))) =
      List.replicate 5 (some (block doneState, [.refused .reservedOperation])) := by decide

/-- T56: reset in any phase. -/
theorem test_reset_input :
    [doneState, at_ 1 7 200 3 9, t38].map (fun s => shows block (step { s with resetLine := [true] })) =
      List.replicate 3 (some (block State.reset)) := by decide

/-! ## Placing an operation: the next step runs what the table's word names -/

/-- The machine with the word `w` of the opcode table placed, right after reset. -/
def placed (w : Nat) : State :=
  State.reset.withFetchWord 8 w

theorem test_placed_host_words_run :
    shows State.events (step (placed 0x21)) = some [.started 2] ∧
      shows State.replies (step (placed 0x2)) = some [.phase 0] ∧
      shows State.replies (step (placed 0x3)) = some [.refused .digestNotValid] := by decide

theorem test_placed_micro_operations_are_selected :
    [0x8, 0x9, 0xA, 0xB, 0xC, 0xD, 0xE].map (fun w => (placed w).sel) =
      [some .absb, some .pads, some .pade, some .padb, some .skip, some .perm, some .sqz] := by decide

theorem test_placed_micro_operations_run :
    [0x8, 0x9, 0xA, 0xB, 0xC, 0xD, 0xE].map (fun w => (shows (fun _ => ()) (step (placed w)))) =
      List.replicate 7 (some ()) := by decide

/-! ## Traces and closed forms (R60, R119, P2, T7 padded messages) -/

theorem test_trace_code : encodeTrace [.start 3, .absb, .pads, .pade, .perm, .sqz, .rddg] = "1(3)89ADE3".toList := by
  decide

theorem test_digest_hex :
    digestHex ((Vector.replicate 32 0).setIfInBounds 0 0xC5) = 'c' :: '5' :: List.replicate 62 '0' := by decide

/-- The padded messages of 1 and of 135 bytes. -/
theorem test_padded_message :
    paddedMessage [0] = [0x00, 0x01] ++ List.replicate 133 0x00 ++ [0x80] ∧
      paddedMessage (List.replicate 135 7) = List.replicate 135 7 ++ [0x81] := by decide +kernel

/-! ## Witnesses

For every statement of Certificates/Slice0/Obligations.lean that has premises, concrete states and operands that meet them
all, for each of its clauses and at the boundaries of their ranges. `shows p o = some true` says that the outcome `o` is a
next state for which `p` holds. -/

/-! ## States -/

/-- In the middle of a run on the empty input, at its start, a `START 5` held on the port. -/
def heldRun : State :=
  onPort (at_ 0 0 0) 0x51 [1, 2, 3, 4, 5]

/-- A finished run on the empty input, an `RDDG` on the port. -/
def finishedRun : State :=
  { State.reset with
    phase := .done, pos := 136, provider := .identity, digest := some (keccak256 id [])
    host := [.transact 0x3 []] }

/-- The invariant at the start of a run on the empty input, whatever HOST has pending that keeps its duty. -/
theorem start_of_run_inv (host : List HostMove) (h : State.hostDuty { at_ 0 0 0 with host := host }) :
    State.RunInv { at_ 0 0 0 with host := host } := by
  refine ⟨h, rfl, ?_, [], fun _ => ⟨rfl, rfl⟩, ?_, rfl⟩
  · exact ⟨Nat.zero_le _, Nat.zero_le _⟩
  · show zeroLanes.setIfInBounds 0 0 = zeroLanes
    decide

theorem running_inv : (at_ 0 0 0).RunInv :=
  start_of_run_inv [] (by intro w b l h; cases h)

theorem heldRun_inv : heldRun.RunInv := by
  refine start_of_run_inv _ ?_
  intro w b l h hw
  simp only [List.mem_singleton, HostMove.transact.injEq] at h
  obtain ⟨rfl, rfl⟩ := h
  cases hw
  decide

theorem finishedRun_inv : finishedRun.RunInv := by
  refine ⟨?_, rfl, ⟨rfl, rfl⟩, [], fun _ => ⟨rfl, rfl⟩, rfl⟩
  intro w b l h hw
  simp only [finishedRun, List.mem_singleton, HostMove.transact.injEq] at h
  obtain ⟨rfl, rfl⟩ := h
  cases hw

/-! ## Steps, reset, words -/

theorem witness_StepRunsTheTransactionOnThePort :
    let s := onPort doneState 0x3
    s.resetLine.head? ≠ some true ∧ s.host = [.transact 0x3 []] ∧ decodeWord 0x3 = .ok .rddg ∧
      Instr.rddg.isHost = true ∧ s.holds .rddg = false ∧ shows (fun _ => true) (exec .rddg s.passReset) = some true :=
  ⟨by decide, rfl, rfl, rfl, rfl, by decide⟩

theorem witness_StepRunsTheSelectedMicroOperation :
    let s := at_ 0 0 0
    s.resetLine.head? ≠ some true ∧ s.sel = some .pads ∧ s.host = [] ∧
      State.sel { s with host := [.idle] } = some .pads ∧
      heldRun.sel = some .pads ∧ decodeWord 0x51 = .ok (.start 5) ∧ heldRun.busy :=
  ⟨by decide, rfl, rfl, rfl, rfl, rfl, by decide⟩

theorem witness_ResetInputResetsTheBlock :
    State.resetLine { doneState with resetLine := [true, false] } = true :: [false] := rfl

theorem witness_EngineWaitsInIdleAndDone :
    (State.reset.phase = .idle ∧ State.reset.quiet) ∧ (doneState.phase = .done ∧ doneState.quiet) := by decide

theorem witness_DecodeAndEncodeAgree :
    (Instr.start (2 ^ 32 - 1)).wellFormed (some 32) = true ∧ (Instr.start 0).wellFormed (some 0) = true ∧
      decodeWord 0x31 = .ok (.start 3) ∧ decodeWord 0x12 = .ok .rdst :=
  ⟨by decide, by decide, rfl, rfl⟩

theorem witness_ReservedWordsAreRefused :
    (∀ w ∈ [0x0, 0x4, 0x7, 0x8, 0xE, 0xF, 0xF8],
      w % 16 ∈ [0, 4, 5, 6, 7, 8, 9, 10, 11, 12, 13, 14, 15] ∧ (onPort doneState w).resetLine = [] ∧
        (onPort doneState w).host = [.transact w []]) ∧
      t38.sel = some .sqz := by decide

/-! ## Host transactions -/

theorem witness_StartBeginsTheRun :
    State.reset.phase = .idle ∧ doneState.phase = .done ∧ lengthFits none (2 ^ 64) = true ∧
      lengthFits (some 32) (2 ^ 32 - 1) = true ∧ lengthFits (some 32) 0 = true := by decide

theorem witness_StartIsHeldDuringARun :
    (heldRun.busy ∧ t38.busy) ∧
      (heldRun.RunInv ∧ heldRun.resetLine = [] ∧ heldRun.host = [.transact 0x51 [1, 2, 3, 4, 5]] ∧
        decodeWord 0x51 = .ok (.start 5)) ∧
      shows (fun _ => true) (step heldRun) = some true :=
  ⟨by decide, ⟨heldRun_inv, rfl, rfl, rfl⟩, by decide⟩

theorem witness_StartWithTooLargeALengthIsRefused :
    let s := onPort { State.reset with lenw := some 4 } (encodeWord (.start 16))
    ¬ s.busy ∧ s.lenw = some 4 ∧ 2 ^ 4 ≤ 16 ∧ s.resetLine = [] ∧ s.host = [.transact (encodeWord (.start 16)) []] := by
  decide

theorem witness_RddgReturnsTheDigest :
    doneState.phase = .done ∧ doneState.digest = some (Vector.replicate 32 0xC5) ∧
      shows (fun _ => true) (exec .rddg doneState) = some true := by decide

theorem witness_RddgOutsideDoneIsRefused :
    ∀ s ∈ [State.reset, at_ 0 0 0, t38],
      s.phase ≠ .done ∧ (onPort s (encodeWord .rddg)).resetLine = [] ∧
        (onPort s (encodeWord .rddg)).host = [.transact (encodeWord .rddg) []] := by decide

theorem witness_HostTransactionsDoNotReadTheState :
    Instr.rdst.isHost = true ∧ shows (fun _ => true) (exec .rdst doneState) = some true ∧
      Instr.rddg.isHost = true ∧ refusedFor (exec .rddg State.reset) = some .digestNotValid ∧
      (Instr.start 3).isHost = true ∧ shows (fun _ => true) (exec (.start 3) doneState) = some true := by decide

/-! ## The byte view -/

theorem witness_XorbChangesOneStateByte :
    135 ≤ 135 ∧ (∀ bit ∈ [0, 55], ¬ (8 * (135 % 8) ≤ bit ∧ bit ≤ 8 * (135 % 8) + 7)) ∧ 0 < 25 ∧ 24 < 25 ∧ 199 < 200 := by
  decide

theorem witness_XorbLaws : 0 ≤ 135 ∧ 135 ≤ 135 := by decide

theorem witness_LanesAreLittleEndian : 0 ≤ 24 ∧ 24 ≤ 24 ∧ 0 ≤ 135 ∧ 135 ≤ 135 ∧ 0 < 8 ∧ 7 < 8 := by decide

/-! ## Position operations, PERM, SQZ -/

theorem witness_AbsbAbsorbsTheInputByte :
    (let s := at_ 0 0 1 (input := Memory.ofBytes [0x61])
     s.phase = .absorb ∧ s.pos.toNat ≤ 135 ∧ 136 * s.window + s.pos.toNat < s.len ∧
       s.input.read (136 * s.window + s.pos.toNat) = some 0x61) ∧
    (let s := at_ 1 135 272 (input := [(271, 0x0F)])
     s.phase = .absorb ∧ s.pos.toNat ≤ 135 ∧ 136 * s.window + s.pos.toNat < s.len ∧
       s.input.read (136 * s.window + s.pos.toNat) = some 0x0F) := by decide

theorem witness_AbsbStopsOnAMissingByte :
    let s := at_ 0 1 2 (input := Memory.ofBytes [0x61])
    s.phase = .absorb ∧ s.pos.toNat ≤ 135 ∧ 136 * s.window + s.pos.toNat < s.len ∧
      s.input.read (136 * s.window + s.pos.toNat) = none := by decide

theorem witness_PadsXorsTheStartMarker :
    ∀ s ∈ [at_ 0 0 0, at_ 0 134 134, at_ 2 0 272],
      s.phase = .absorb ∧ s.pos.toNat ≤ 134 ∧ 136 * s.window + s.pos.toNat = s.len := by decide

theorem witness_PadeXorsTheEndMarker :
    ∀ s ∈ [at_ 0 135 134, at_ 1 135 136],
      s.phase = .absorb ∧ s.pos.toNat = 135 ∧ 136 * s.window + 135 > s.len := by decide

theorem witness_PadbXorsBothMarkers :
    ∀ s ∈ [at_ 0 135 135, at_ 1 135 271],
      s.phase = .absorb ∧ s.pos.toNat = 135 ∧ 136 * s.window + 135 = s.len := by decide

theorem witness_SkipOnlyAdvances :
    ∀ s ∈ [at_ 0 1 0, at_ 0 134 133, at_ 1 1 136],
      s.phase = .absorb ∧ s.pos.toNat ≤ 134 ∧ 136 * s.window + s.pos.toNat > s.len := by decide

theorem witness_PermPermutesAndEndsTheWindow :
    (∀ s ∈ [at_ 0 136 0, at_ 0 136 135, at_ 1 136 136],
      s.phase = .absorb ∧ s.pos.toNat = 136 ∧ s.window = s.len / 136 ∧ s.window ≤ s.len / 136) ∧
    (∀ s ∈ [at_ 0 136 136, at_ 1 136 272], s.phase = .absorb ∧ s.pos.toNat = 136 ∧ s.window ≠ s.len / 136) := by decide

theorem witness_SqzReadsOutTheDigest : t38.phase = .squeeze ∧ 31 < 32 := by decide

theorem witness_DigestWordIsLanesThreeToZero : t38.phase = .squeeze ∧ 0 < 32 ∧ 31 < 32 := by decide

theorem witness_DigestDependsOnLanesZeroToThree :
    t38.phase = .squeeze ∧ ∀ k < 4, lane (t38.lanes.setIfInBounds 4 0) k = lane t38.lanes k := by decide

theorem witness_KeccakStepsInMatrixCoordinates : 0 < 5 ∧ 4 < 5 := by decide

/-! ## Selection and whole-machine rules -/

theorem witness_SelectionAgreesWithEachOperation : State.reset.phase = .idle ∧ doneState.phase = .done := by decide

theorem witness_SelectionIsTotalAndExact :
    ((at_ 0 0 0).busy ∧ (at_ 0 0 0).controlWf) ∧ ((at_ 2 136 300).busy ∧ (at_ 2 136 300).controlWf) ∧
      (Instr.sqz.isHost = false ∧ (at_ 0 0 0).sel ≠ some .sqz) :=
  ⟨⟨by decide, by decide, by decide⟩, ⟨by decide, by decide, by decide⟩, by decide⟩

theorem witness_RegistersAreWrittenOnlyByTheirWriters :
    shows (fun t => decide (t.lanes ≠ (at_ 0 0 0).lanes ∧ t.pos ≠ (at_ 0 0 0).pos)) (exec .pads (at_ 0 0 0)) = some true ∧
      shows (fun t => decide (lane t.lanes 17 ≠ lane (at_ 0 136 0).lanes 17))
        (exec .perm { at_ 0 136 0 with provider := .complement }) = some true ∧
      shows (fun t => decide (t.digest ≠ t38.digest ∧ t.phase ≠ t38.phase)) (exec .sqz t38) = some true ∧
      shows (fun t => decide (t.len ≠ doneState.len ∧ t.input ≠ doneState.input))
        (exec (.start 1) (onPort doneState 0x11 [7])) = some true ∧
      shows (fun t => decide (t.window ≠ 0)) (exec .perm (at_ 0 136 136)) = some true := by decide

theorem witness_TheRunsInputNeverChanges :
    shows (fun _ => true) (step heldRun) = some true ∧ heldRun.busy ∧ heldRun.resetLine.head? ≠ some true := by decide

theorem witness_StepKeepsTheMemoryForm :
    let s := onPort { doneState with input := Memory.ofBytes [1, 2] } 0x31 [7, 8, 9]
    s.input.wf = true ∧ shows (fun _ => true) (step s) = some true := by decide

theorem witness_PhaseMovesOnlyForward :
    shows (fun t => decide (t.phase ≠ doneState.phase)) (step { doneState with resetLine := [true] }) = some true ∧
      shows (fun t => decide (t.phase ≠ doneState.phase)) (step (onPort doneState 0x1)) = some true ∧
      shows (fun t => decide (t.phase ≠ .absorb)) (step (at_ 0 136 0)) = some true ∧
      shows (fun t => decide (t.phase ≠ t38.phase)) (step t38) = some true := by decide

/-! ## The invariant and whole runs -/

theorem witness_StepKeepsTheRunInvariant :
    (at_ 0 0 0).RunInv ∧ shows (fun _ => true) (step (at_ 0 0 0)) = some true :=
  ⟨running_inv, by decide⟩

theorem witness_EveryStepAnswersNext : heldRun.RunInv ∧ finishedRun.RunInv :=
  ⟨heldRun_inv, finishedRun_inv⟩

theorem witness_EveryDigestReturnedIsTheRunsDigest :
    finishedRun.RunInv ∧
      ∃ t, step finishedRun = .next t ∧ t.replies = finishedRun.replies ++ [.digest (keccak256 id [])] :=
  ⟨finishedRun_inv, _, rfl, rfl⟩

theorem witness_EachEngineStepBringsTheEndNearer :
    (at_ 0 0 0).RunInv ∧ (at_ 0 0 0).busy ∧ (at_ 0 0 0).quiet :=
  ⟨running_inv, by decide, by decide⟩

theorem witness_RunComputesTheDigest :
    ∀ s ∈ [onPort State.reset (encodeWord (.start 2)) [7, 8], onPort doneState (encodeWord (.start 2)) [7, 8]],
      (s.phase = .idle ∨ s.phase = .done) ∧ lengthFits s.lenw [7, 8].length = true ∧ s.resetLine = [] ∧
        s.host = [.transact (encodeWord (.start [7, 8].length)) [7, 8]] := by decide

/-- The premises of the first clause of `RunEventsComeInOrder` are those of `RunComputesTheDigest`; here at the empty
input. -/
theorem witness_RunEventsComeInOrder :
    let s := onPort State.reset (encodeWord (.start 0))
    s.phase = .idle ∧ lengthFits s.lenw ([] : List Byte).length = true ∧ s.resetLine = [] ∧
      s.host = [.transact (encodeWord (.start ([] : List Byte).length)) []] := by decide

theorem witness_RunPerformsTheCountedOperations :
    let s := at_ 0 0 1 (input := Memory.ofBytes [7])
    s.quiet ∧ s.phase = .absorb ∧ s.window = 0 ∧ s.pos = 0 ∧ s.runsOn [7] :=
  ⟨by decide, rfl, rfl, rfl, rfl, rfl⟩

theorem witness_DigestDependsOnTheInputAlone :
    let s := onPort State.reset (encodeWord (.start 1)) [7]
    let u := onPort { doneState with lenw := some 8 } (encodeWord (.start 1)) [7]
    ¬ s.busy ∧ ¬ u.busy ∧ s.provider = u.provider ∧ lengthFits s.lenw [7].length = true ∧
      lengthFits u.lenw [7].length = true ∧ s.resetLine = [] ∧ u.resetLine = [] ∧
      s.host = [.transact (encodeWord (.start [7].length)) [7]] ∧
      u.host = [.transact (encodeWord (.start [7].length)) [7]] := by decide

theorem witness_AllPaddingWindowChangesTwoBits :
    ([] : List Byte).length % 136 = 0 ∧ (List.replicate 136 (0 : Byte)).length % 136 = 0 := by simp

theorem witness_BlockFormGivesTheSameDigest :
    0 < windowCount [7].length ∧ 1 < windowCount (List.replicate 136 7).length := by
  simp [windowCount]

theorem witness_OrderInsideAWindowIsNotObservable : ((List.range 136).reverse).Perm (List.range 136) :=
  List.reverse_perm _

end Sys2Proof.Tests
end

section
/-! The state right after reset, field by field, and the obligation on its values (spec/10_state.md R24). -/

namespace Sys2Proof.Machine

/-! `State.reset` -/

@[simp] theorem State.reset_lanes : State.reset.lanes = zeroLanes := rfl
@[simp] theorem State.reset_digest : State.reset.digest = none := rfl
@[simp] theorem State.reset_phase : State.reset.phase = .idle := rfl
@[simp] theorem State.reset_len : State.reset.len = 0 := rfl
@[simp] theorem State.reset_window : State.reset.window = 0 := rfl
@[simp] theorem State.reset_pos : State.reset.pos = 0 := rfl
@[simp] theorem State.reset_input : State.reset.input = [] := rfl

/-- Every lane of the reset state reads zero: reset leaves the state buffer a run starts from (R24, R25). -/
theorem lane_reset (k : Nat) : lane State.reset.lanes k = 0 := by
  rw [State.reset_lanes, lane_zeroLanes]

/-- IDLE is the phase with code 0, the one `RDST` reads right after reset (R17, R24). -/
theorem State.reset_phase_code : State.reset.phase.code = 0 := by
  rw [State.reset_phase, Phase.code]

/-- Settles O4, from the lanes of `zeroLanes` and the reset state's fields. -/
theorem resetValuesOfTheBlock : Obligations.ResetValuesOfTheBlock :=
  ⟨fun k _ => lane_reset k, State.reset_digest, State.reset_phase_code, State.reset_len, State.reset_window,
    State.reset_pos, State.reset_input⟩

end Sys2Proof.Machine
end

section
/-! The byte order of lanes and of the digest word (spec/20_memory.md R33, R34). Both are little-endian, so both come down
to where a bit of a byte stands in the whole: `toNat_stateByte` for a lane, `getLsbD_digestWord` for the digest. -/

namespace Sys2Proof.Machine

/-! Lanes as numbers in base 256 -/

/-- The `n` low base-256 digits of a number, each at its weight, sum to the number cut to `n` bytes. -/
theorem sum_byte_digits (x n : Nat) :
    ((List.range n).map fun m => 2 ^ (8 * m) * (x / 2 ^ (8 * m) % 2 ^ 8)).sum = x % 2 ^ (8 * n) := by
  induction n with
  | zero => simp [Nat.mod_one]
  | succ n ih => rw [List.sum_range_succ, ih, Nat.mul_succ, Nat.pow_add, Nat.mod_mul]

/-- State byte `8k + m` is base-256 digit `m` of lane `k` (R12). -/
theorem toNat_stateByte (S : Lanes) (k : Nat) {m : Nat} (h : m < 8) :
    (stateByte S (8 * k + m)).toNat = (lane S k).toNat / 2 ^ (8 * m) % 2 ^ 8 := by
  have hlane : (8 * k + m) / 8 = k := by omega
  have hbyte : (8 * k + m) % 8 = m := by omega
  rw [stateByte, hlane, hbyte, BitVec.toNat_setWidth, BitVec.toNat_ushiftRight, Nat.shiftRight_eq_div_pow]

theorem toNat_lane_eq_sum_stateByte (S : Lanes) (k : Nat) :
    (lane S k).toNat = ((List.range 8).map fun m => 2 ^ (8 * m) * (stateByte S (8 * k + m)).toNat).sum := by
  have hdigits : ∀ m ∈ List.range 8, 2 ^ (8 * m) * (stateByte S (8 * k + m)).toNat =
      2 ^ (8 * m) * ((lane S k).toNat / 2 ^ (8 * m) % 2 ^ 8) :=
    fun m hm => by rw [toNat_stateByte S k (List.mem_range.mp hm)]
  rw [List.map_congr_left hdigits, sum_byte_digits, Nat.mod_eq_of_lt (lane S k).isLt]

/-- `XORB` as a lane read sees it: bit `bit` of the byte lands at bit `8*(i mod 8) + bit` of the position's lane (R34, R75). -/
theorem getLsbD_lane_xorb (S : Lanes) {i : Nat} (b : Byte) {bit : Nat} (hi : i < 200) (hbit : bit < 8) :
    (lane (xorb S i b) (i / 8)).getLsbD (8 * (i % 8) + bit) =
      ((lane S (i / 8)).getLsbD (8 * (i % 8) + bit) ^^ b.getLsbD bit) := by
  rw [lane_xorb S i b (by omega), if_pos rfl, BitVec.getLsbD_xor, getLsbD_byteInLane]
  simp [hbit]

/-- Settles O18, from a lane's base-256 digits and the bits of a placed byte. -/
theorem lanesAreLittleEndian : Obligations.LanesAreLittleEndian :=
  ⟨fun S k _ => toNat_lane_eq_sum_stateByte S k, fun S _ b _ hi hbit => getLsbD_lane_xorb S b (by omega) hbit⟩

/-! The digest as one word -/

/-- Byte `j` of a little-endian byte string stands at bits `8j` to `8j + 7` of its number (R34). -/
theorem testBit_leNat (bs : List Byte) (j : Nat) {bit : Nat} (h : bit < 8) :
    (leNat bs).testBit (8 * j + bit) = (bs[j]?.getD 0).getLsbD bit := by
  induction bs generalizing j with
  | nil => simp [leNat]
  | cons b bs ih =>
    have hcons : leNat (b :: bs) = 2 ^ 8 * leNat bs + b.toNat := Nat.add_comm _ _
    rw [hcons, Nat.testBit_two_pow_mul_add _ b.isLt]
    cases j with
    | zero => simp [h, BitVec.testBit_toNat]
    | succ j =>
      have hrest : 8 * (j + 1) + bit - 8 = 8 * j + bit := by omega
      rw [if_neg (by omega), hrest, ih, List.getElem?_cons_succ]

/-- `D[j]` is carried in bits `8j` to `8j + 7` of the digest word (R33). -/
theorem getLsbD_digestWord (d : Digest) {j bit : Nat} (hj : j < 32) (hbit : bit < 8) :
    (digestWord d).getLsbD (8 * j + bit) = d[j].getLsbD bit := by
  have hin : 8 * j + bit < 256 := by omega
  rw [digestWord, BitVec.getLsbD_ofNat, testBit_leNat _ _ hbit]
  simp [hin, hj]

theorem extractLsb'_digestWord (d : Digest) {j : Nat} (hj : j < 32) :
    (digestWord d).extractLsb' (8 * j) 8 = d[j] := by
  ext bit hbit
  rw [← BitVec.getLsbD_eq_getElem, ← BitVec.getLsbD_eq_getElem, BitVec.getLsbD_extractLsb',
    getLsbD_digestWord d hj hbit, decide_eq_true hbit, Bool.true_and]

/-- Bit `r` of lane `k` is bit `r + 64k` of the word of the squeezed digest. -/
theorem getLsbD_digestWord_squeezedDigest (S : Lanes) {k r : Nat} (hk : k < 4) (hr : r < 64) :
    (digestWord (squeezedDigest S)).getLsbD (r + 64 * k) = (lane S k).getLsbD r := by
  have hsplit : r + 64 * k = 8 * (8 * k + r / 8) + r % 8 := by omega
  have hlane : (8 * k + r / 8) / 8 = k := by omega
  have hbit : 8 * ((8 * k + r / 8) % 8) + r % 8 = r := by omega
  rw [hsplit, getLsbD_digestWord _ (by omega) (by omega), squeezedDigest_get S (by omega),
    getLsbD_stateByte _ _ _ (by omega), hlane, hbit]

theorem digestWord_squeezedDigest (S : Lanes) :
    digestWord (squeezedDigest S) = lane S 3 ++ lane S 2 ++ lane S 1 ++ lane S 0 := by
  refine BitVec.eq_of_getLsbD_eq fun i hi => ?_
  obtain ⟨k, r, hk, hr, rfl⟩ : ∃ k r, k < 4 ∧ r < 64 ∧ i = r + 64 * k :=
    ⟨i / 64, i % 64, by omega, by omega, by omega⟩
  have habove : ¬ r + 128 < 64 ∧ ¬ r + 192 < 64 := by omega
  rw [getLsbD_digestWord_squeezedDigest S hk hr]
  simp only [BitVec.getLsbD_append]
  interval_cases k <;> simp [hr, habove]

/-! `SQZ`, then `RDDG` -/

theorem exec_sqz_of_squeeze {s : State} (h : s.phase = .squeeze) :
    exec .sqz s = .next ({ s with digest := some (squeezedDigest s.lanes), phase := .done }.note .digestReady) :=
  if_pos h

theorem exec_rddg_of_done {s : State} {d : Digest} (hp : s.phase = .done) (hd : s.digest = some d) :
    exec .rddg s = .next (s.reply (.digest d)) := by
  simp [exec, execRddg, hp, hd]

/-- Settles O27, from the bits of the digest word; `RDDG` finds the phase and the digest that `SQZ` left. -/
theorem digestWordIsLanesThreeToZero : Obligations.DigestWordIsLanesThreeToZero :=
  ⟨fun d _ hj => extractLsb'_digestWord d hj,
    fun s hs => ⟨_, squeezedDigest s.lanes, exec_sqz_of_squeeze hs, rfl, fun _ hj => squeezedDigest_get s.lanes hj,
      digestWord_squeezedDigest s.lanes, exec_rddg_of_done rfl rfl⟩⟩

end Sys2Proof.Machine
end

section
/-! Which bits of the state `XORB` reaches (spec/41_pad_absorb.md R75): the eight of its byte take the byte
(`getLsbD_lane_xorb`), all others stand (`getLsbD_lane_xorb_of_outside`). The byte view follows from these two. -/

namespace Sys2Proof.Machine

/-- A bit that is not in the byte of position `i`, by its lane or by its place in the lane, survives `XORB` at `i`. -/
theorem getLsbD_lane_xorb_of_outside (S : Lanes) (i : Nat) (b : Byte) {k bit : Nat} (hk : k < 25)
    (hout : ¬ (k = i / 8 ∧ 8 * (i % 8) ≤ bit ∧ bit ≤ 8 * (i % 8) + 7)) :
    (lane (xorb S i b) k).getLsbD bit = (lane S k).getLsbD bit := by
  rw [lane_xorb S i b hk]
  split
  case isTrue hlane =>
    have hplace : ¬ (8 * (i % 8) ≤ bit ∧ bit < 8 * (i % 8) + 8) := by omega
    simp [getLsbD_byteInLane, hplace]
  case isFalse => rfl

/-- `SB(i)` takes the byte (R75). -/
theorem stateByte_xorb_self (S : Lanes) {i : Nat} (b : Byte) (hi : i < 200) :
    stateByte (xorb S i b) i = stateByte S i ^^^ b := by
  refine BitVec.eq_of_getLsbD_eq fun bit hbit => ?_
  rw [BitVec.getLsbD_xor, getLsbD_stateByte _ _ _ hbit, getLsbD_stateByte _ _ _ hbit, getLsbD_lane_xorb S b hi hbit]

/-- Every other state byte stands (R75): another byte has no bit in the byte of position `i`. -/
theorem stateByte_xorb_of_ne (S : Lanes) {i j : Nat} (b : Byte) (hj : j < 200) (hne : j ≠ i) :
    stateByte (xorb S i b) j = stateByte S j := by
  refine BitVec.eq_of_getLsbD_eq fun bit hbit => ?_
  rw [getLsbD_stateByte _ _ _ hbit, getLsbD_stateByte _ _ _ hbit,
    getLsbD_lane_xorb_of_outside S i b (by omega) (by omega)]

/-- `XORB` in the byte view, all 200 state bytes at once (R75). -/
theorem stateByte_xorb (S : Lanes) {i j : Nat} (b : Byte) (hj : j < 200) :
    stateByte (xorb S i b) j = if j = i then stateByte S j ^^^ b else stateByte S j := by
  split
  case isTrue heq => subst heq; exact stateByte_xorb_self S b hj
  case isFalse hne => exact stateByte_xorb_of_ne S b hj hne

/-- Settles O16, from `XORB` on lanes, on the bits outside its byte, and in the byte view. -/
theorem xorbChangesOneStateByte : Obligations.XorbChangesOneStateByte :=
  fun S i b hi =>
    ⟨fun _ hk => lane_xorb S i b hk,
      fun _ _ hout => getLsbD_lane_xorb_of_outside S i b (by omega) fun h => hout h.2,
      fun _ hj => stateByte_xorb S b hj⟩

end Sys2Proof.Machine
end

section
/-! `PERM` (spec/42_permutation.md R95, R96): the state it leaves, by whether the window was the final one. -/

namespace Sys2Proof.Machine

/-- Wherever it is selected, `PERM` succeeds (R95, R100): the data part, the control part, the record of the call. -/
theorem exec_perm_of_selectsPerm {s : State} (h : s.selectsPerm) :
    exec .perm s = .next (s.permuteLanes.endWindow.note .permCall) :=
  if_pos h

/-- `SQUEEZE` selects `SQZ`: no `PERM` follows the final window's (R53, R96). -/
theorem State.sel_of_squeeze {s : State} (h : s.phase = .squeeze) : s.sel = some .sqz := by
  rw [State.sel, h, Machine.sel]

/-- The final window's test without the division (R96). -/
theorem window_eq_div_iff {W len : Nat} (h : W ≤ len / 136) : W = len / 136 ↔ 136 * (W + 1) > len := by
  omega

/-- `PERM` reaches the lanes, `PHASE`, `W`, `I` and the record of events, and nothing else. -/
theorem State.permuteLanes_endWindow_note_frame {s t : State} {e : Event} (h : t = s.permuteLanes.endWindow.note e) :
    t = { s with lanes := t.lanes, phase := t.phase, window := t.window, pos := t.pos, events := t.events } := by
  subst h
  unfold State.endWindow
  split
  case isTrue => rfl
  case isFalse => rfl

/-- Settles O25, from what `PERM` leaves where it is selected. -/
theorem permPermutesAndEndsTheWindow : Obligations.PermPermutesAndEndsTheWindow := by
  intro s hphase hpos
  refine ⟨_, exec_perm_of_selectsPerm ⟨hphase, hpos⟩, by simp, fun hfinal => ?_, fun hmore => ?_,
    window_eq_div_iff, by simp, State.permuteLanes_endWindow_note_frame rfl⟩
  case refine_1 =>
    have hsqueeze : (s.permuteLanes.endWindow.note .permCall).phase = .squeeze := by simp [hfinal]
    exact ⟨hsqueeze, by simp [hfinal], by simp [hfinal, hpos], State.sel_of_squeeze hsqueeze⟩
  case refine_2 => simp [hmore, hphase]

end Sys2Proof.Machine
end

section
/-! Rotation and XOR of lanes, the algebra that theta and rho rest on (spec/42_permutation.md R107, R108). -/

namespace Sys2Proof.Machine

/-- Bit `i` of a lane rotated left by `r` is bit `i - r` modulo 64, here as `i + 63 * r`. -/
theorem getLsbD_rotateLeft_lane (a : Lane) (r : Nat) {i : Nat} (h : i < 64) :
    (a.rotateLeft r).getLsbD i = a.getLsbD ((i + 63 * r) % 64) := by
  rw [BitVec.getLsbD_rotateLeft]
  by_cases hlow : i < r % 64
  · have hbit : 64 - r % 64 + i = (i + 63 * r) % 64 := by omega
    simp [hlow, hbit]
  · have hbit : i - r % 64 = (i + 63 * r) % 64 := by omega
    simp [hlow, h, hbit]

theorem rotateLeft_xor (a b : Lane) (r : Nat) : (a ^^^ b).rotateLeft r = a.rotateLeft r ^^^ b.rotateLeft r := by
  refine BitVec.eq_of_getLsbD_eq fun i hi => ?_
  simp only [BitVec.getLsbD_xor, getLsbD_rotateLeft_lane _ _ hi]

theorem rotateLeft_rotateLeft (a : Lane) (r t : Nat) : (a.rotateLeft r).rotateLeft t = a.rotateLeft (r + t) := by
  refine BitVec.eq_of_getLsbD_eq fun i hi => ?_
  have hbit : ((i + 63 * t) % 64 + 63 * r) % 64 = (i + 63 * (r + t)) % 64 := by omega
  rw [getLsbD_rotateLeft_lane _ _ hi, getLsbD_rotateLeft_lane _ _ (Nat.mod_lt _ (by decide)), hbit,
    getLsbD_rotateLeft_lane _ _ hi]

/-- Rotation by a multiple of the lane's width does nothing. -/
theorem rotateLeft_width_mul (a : Lane) (k : Nat) : a.rotateLeft (64 * k) = a := by
  refine BitVec.eq_of_getLsbD_eq fun i hi => ?_
  have hbit : (i + 63 * (64 * k)) % 64 = i := by omega
  rw [getLsbD_rotateLeft_lane _ _ hi, hbit]

theorem rotateLeft_injective (r : Nat) : Function.Injective fun a : Lane => a.rotateLeft r := by
  have hback : Function.LeftInverse (fun a : Lane => a.rotateLeft (63 * r)) fun a => a.rotateLeft r := fun a => by
    have hwhole : r + 63 * r = 64 * r := by omega
    simp only [rotateLeft_rotateLeft, hwhole, rotateLeft_width_mul]
  exact hback.injective

theorem xor_left_comm (a b c : Lane) : a ^^^ (b ^^^ c) = b ^^^ (a ^^^ c) := by
  rw [← BitVec.xor_assoc, BitVec.xor_comm a b, BitVec.xor_assoc]

theorem xor_xor_cancel_left (a b : Lane) : a ^^^ (a ^^^ b) = b := by
  rw [← BitVec.xor_assoc, BitVec.xor_self, BitVec.zero_xor]

end Sys2Proof.Machine
end

section
/-! Theta is injective (spec/42_permutation.md R107). On the column parities it is multiplication by `1 + x + x^4 z` in
`GF(2)[x, z] / (x^5 - 1, z^64 - 1)`. The 64th power of that, six squarings on, is `1 + x + x^4`: it has no rotation left
and is inverted by `1 + x^2 + x^3`. -/

namespace Sys2Proof.Machine

/-- What theta does to column parities (`columnParity_theta`), with every power of `x` and `z` raised to the `n`-th. -/
def spreadParity (n : Nat) (C : Nat → Lane) (x : Nat) : Lane :=
  C x ^^^ (C (x + 4 * n) ^^^ (C (x + n)).rotateLeft n)

theorem columnParity_congr (A : Lanes) {x x' : Nat} (h : x % 5 = x' % 5) : columnParity A x = columnParity A x' := by
  simp only [columnParity, matrixLane, h]

theorem matrixLane_theta (A : Lanes) (x y : Nat) :
    matrixLane (theta A) x y =
      matrixLane A x y ^^^ (columnParity A (x + 4) ^^^ (columnParity A (x + 1)).rotateLeft 1) := by
  have hleft : columnParity A (x % 5 + 4) = columnParity A (x + 4) := columnParity_congr A (by omega)
  have hright : columnParity A (x % 5 + 1) = columnParity A (x + 1) := columnParity_congr A (by omega)
  rw [theta, matrixLane_ofMatrix, matrixLane_mod, hleft, hright]

/-- A column's five lanes each take the same value, an odd number of times. -/
theorem columnParity_theta (A : Lanes) (x : Nat) : columnParity (theta A) x = spreadParity 1 (columnParity A) x := by
  have hcolumn (d : Lane) (h : ∀ y, matrixLane (theta A) x y = matrixLane A x y ^^^ d) :
      columnParity (theta A) x = columnParity A x ^^^ d := by
    simp only [columnParity, h, BitVec.xor_assoc, xor_left_comm d, xor_xor_cancel_left]
  exact hcolumn _ (matrixLane_theta A x)

/-- Squaring doubles the exponents: the mixed terms cancel. -/
theorem spreadParity_spreadParity (n : Nat) (C : Nat → Lane) :
    spreadParity n (spreadParity n C) = spreadParity (2 * n) C := by
  funext x
  have hfive : x + 4 * n + n = x + n + 4 * n := by omega
  have height : x + 4 * n + 4 * n = x + 4 * (2 * n) := by omega
  have htwo : x + n + n = x + 2 * n := by omega
  simp only [spreadParity, rotateLeft_xor, rotateLeft_rotateLeft, hfive, height, htwo, ← Nat.two_mul]
  simp only [BitVec.xor_assoc, BitVec.xor_comm, xor_left_comm, xor_xor_cancel_left, BitVec.xor_self, BitVec.zero_xor]

theorem spreadParity_two_pow_eq {C C' : Nat → Lane} (h : spreadParity 1 C = spreadParity 1 C') (k : Nat) :
    spreadParity (2 ^ k) C = spreadParity (2 ^ k) C' := by
  induction k with
  | zero => exact h
  | succ k ih => rw [Nat.pow_succ', ← spreadParity_spreadParity, ih, spreadParity_spreadParity]

theorem spreadParity_width (A : Lanes) (x : Nat) :
    spreadParity 64 (columnParity A) x = columnParity A x ^^^ (columnParity A (x + 1) ^^^ columnParity A (x + 4)) := by
  have hone : columnParity A (x + 4 * 64) = columnParity A (x + 1) := columnParity_congr A (by omega)
  have hfour : columnParity A (x + 64) = columnParity A (x + 4) := columnParity_congr A (by omega)
  rw [spreadParity, hone, hfour, rotateLeft_width_mul _ 1]

theorem columnParity_eq_of_spreadParity_width (A : Lanes) (x : Nat) :
    columnParity A x = spreadParity 64 (columnParity A) x ^^^
      (spreadParity 64 (columnParity A) (x + 2) ^^^ spreadParity 64 (columnParity A) (x + 3)) := by
  have hsix : columnParity A (x + 6) = columnParity A (x + 1) := columnParity_congr A (by omega)
  have hseven : columnParity A (x + 7) = columnParity A (x + 2) := columnParity_congr A (by omega)
  simp only [spreadParity_width, Nat.add_assoc, Nat.reduceAdd, hsix, hseven]
  simp only [BitVec.xor_assoc, BitVec.xor_comm, xor_left_comm, xor_xor_cancel_left, BitVec.xor_self]

theorem columnParity_eq_of_theta_eq {A B : Lanes} (h : theta A = theta B) : columnParity A = columnParity B := by
  have hone : spreadParity 1 (columnParity A) = spreadParity 1 (columnParity B) := by
    funext x
    rw [← columnParity_theta, h, columnParity_theta]
  have hwidth : spreadParity 64 (columnParity A) = spreadParity 64 (columnParity B) := spreadParity_two_pow_eq hone 6
  funext x
  rw [columnParity_eq_of_spreadParity_width, hwidth, ← columnParity_eq_of_spreadParity_width]

/-- The column parities of the result give those of the argument, and these the lanes. -/
theorem theta_injective : Function.Injective theta := fun A B h => by
  refine lanes_ext_matrix fun x _ y _ => ?_
  have hlane : matrixLane (theta A) x y = matrixLane (theta B) x y := by rw [h]
  rw [matrixLane_theta, matrixLane_theta, columnParity_eq_of_theta_eq h] at hlane
  exact (BitVec.xor_left_inj _).mp hlane

end Sys2Proof.Machine
end

section
/-! The other steps of a round are injective (spec/42_permutation.md R108 to R111), and with them each round. -/

namespace Sys2Proof.Machine

theorem matrixLane_rho (A : Lanes) {x y : Nat} (hx : x < 5) (hy : y < 5) :
    matrixLane (rho A) x y = (matrixLane A x y).rotateLeft (rhoOffsets.getD (x + 5 * y) 0) := by
  rw [rho, matrixLane_ofMatrix, Nat.mod_eq_of_lt hx, Nat.mod_eq_of_lt hy]

theorem rho_injective : Function.Injective rho := fun A B h => by
  refine lanes_ext_matrix fun x hx y hy => ?_
  have hlane : matrixLane (rho A) x y = matrixLane (rho B) x y := by rw [h]
  rw [matrixLane_rho A hx hy, matrixLane_rho B hx hy] at hlane
  exact rotateLeft_injective _ hlane

/-- Pi by its source (R109). -/
theorem matrixLane_piStep (A : Lanes) (x y : Nat) : matrixLane (piStep A) y (2 * x + 3 * y) = matrixLane A x y := by
  have hx : (y % 5 + 3 * ((2 * x + 3 * y) % 5)) % 5 = x % 5 := by omega
  rw [piStep, matrixLane_ofMatrix, ← matrixLane_mod, hx, Nat.mod_mod, matrixLane_mod]

theorem piStep_injective : Function.Injective piStep := fun A B h => by
  refine lanes_ext_matrix fun x _ y _ => ?_
  rw [← matrixLane_piStep A, h, matrixLane_piStep]

theorem matrixLane_congr (A : Lanes) {x x' y y' : Nat} (hx : x % 5 = x' % 5) (hy : y % 5 = y' % 5) :
    matrixLane A x y = matrixLane A x' y' := by
  simp only [matrixLane, hx, hy]

theorem matrixLane_chi (A : Lanes) (x y : Nat) :
    matrixLane (chi A) x y = matrixLane A x y ^^^ (~~~ matrixLane A (x + 1) y &&& matrixLane A (x + 2) y) := by
  have hone : matrixLane A (x % 5 + 1) (y % 5) = matrixLane A (x + 1) y := matrixLane_congr A (by omega) (by omega)
  have htwo : matrixLane A (x % 5 + 2) (y % 5) = matrixLane A (x + 2) y := matrixLane_congr A (by omega) (by omega)
  rw [chi, matrixLane_ofMatrix, matrixLane_mod, hone, htwo]

/-- Chi on a row of five bits is undone by `a = y₀ + (1 + y₁)(y₂ + (1 + y₃) y₄)`, where `y` is the row it gives. -/
theorem chi_row_bit_inverse : ∀ a₀ a₁ a₂ a₃ a₄ : Bool,
    ((a₀ ^^ (!a₁ && a₂)) ^^ (!(a₁ ^^ (!a₂ && a₃)) &&
      ((a₂ ^^ (!a₃ && a₄)) ^^ (!(a₃ ^^ (!a₄ && a₀)) && (a₄ ^^ (!a₀ && a₁)))))) = a₀ := by
  decide

theorem chi_row_inverse (a₀ a₁ a₂ a₃ a₄ : Lane) :
    (a₀ ^^^ (~~~ a₁ &&& a₂)) ^^^ (~~~ (a₁ ^^^ (~~~ a₂ &&& a₃)) &&&
      ((a₂ ^^^ (~~~ a₃ &&& a₄)) ^^^ (~~~ (a₃ ^^^ (~~~ a₄ &&& a₀)) &&& (a₄ ^^^ (~~~ a₀ &&& a₁))))) = a₀ := by
  ext i hi
  simpa only [BitVec.getElem_xor, BitVec.getElem_and, BitVec.getElem_not] using
    chi_row_bit_inverse a₀[i] a₁[i] a₂[i] a₃[i] a₄[i]

/-- Each lane from its row of the result of chi. -/
theorem matrixLane_eq_of_chi (A : Lanes) (x y : Nat) :
    matrixLane A x y = matrixLane (chi A) x y ^^^ (~~~ matrixLane (chi A) (x + 1) y &&&
      (matrixLane (chi A) (x + 2) y ^^^ (~~~ matrixLane (chi A) (x + 3) y &&& matrixLane (chi A) (x + 4) y))) := by
  have hfive : matrixLane A (x + 5) y = matrixLane A x y := matrixLane_congr A (by omega) rfl
  have hsix : matrixLane A (x + 6) y = matrixLane A (x + 1) y := matrixLane_congr A (by omega) rfl
  simp only [matrixLane_chi, Nat.add_assoc, Nat.reduceAdd, hfive, hsix]
  exact (chi_row_inverse _ _ _ _ _).symm

theorem chi_injective : Function.Injective chi := fun A B h => by
  refine lanes_ext_matrix fun x _ y _ => ?_
  rw [matrixLane_eq_of_chi A, h, ← matrixLane_eq_of_chi]

theorem lane_iota (rc : Lane) (A : Lanes) {k : Nat} (hk : k < 25) :
    lane (iota rc A) k = if k = 0 then lane A k ^^^ rc else lane A k := by
  cases k with
  | zero => simp [iota, lane]
  | succ k => simp [iota, lane]

theorem iota_involutive (rc : Lane) : Function.Involutive (iota rc) := fun A => by
  refine lanes_ext fun k hk => ?_
  rw [lane_iota _ _ hk, lane_iota _ _ hk]
  split
  case isTrue => rw [BitVec.xor_assoc, BitVec.xor_self, BitVec.xor_zero]
  case isFalse => rfl

theorem keccakRound_injective (rc : Lane) : Function.Injective fun A => keccakRound A rc :=
  (iota_involutive rc).injective.comp
    (chi_injective.comp (piStep_injective.comp (rho_injective.comp theta_injective)))

theorem foldl_keccakRound_injective (rcs : List Lane) : Function.Injective fun A => rcs.foldl keccakRound A := by
  induction rcs with
  | nil => exact Function.injective_id
  | cons rc rcs ih => exact ih.comp (keccakRound_injective rc)

end Sys2Proof.Machine
end

section
/-! What a provider computes is a bijection of the states (spec/42_permutation.md R103). -/

namespace Sys2Proof.Machine

/-- There are finitely many states, so an injective function on them is a bijection. -/
theorem finite_lanes : Finite Lanes :=
  Finite.of_injective (fun (S : Lanes) (k : Fin 25) => lane S k) fun _ _ h => lanes_ext fun k hk => congrFun h ⟨k, hk⟩

theorem keccakF1600_bijective : Function.Bijective keccakF1600 :=
  have := finite_lanes
  Finite.injective_iff_bijective.mp (foldl_keccakRound_injective roundConstants)

theorem complementLanes_involutive : Function.Involutive complementLanes := fun A =>
  lanes_ext fun k hk => by simp [complementLanes, hk]

/-- Settles O29, provider by provider. -/
theorem keccakFIsABijection : Obligations.KeccakFIsABijection
  | .keccakF1600 => keccakF1600_bijective
  | .identity => Function.bijective_id
  | .complement => complementLanes_involutive.bijective
  | .platform n => (Config.platformPermutation n).bijective

end Sys2Proof.Machine
end

section
/-! Operation words (spec/30_encoding.md R51, R52): what a word that decodes says of its operation, and the round trip. -/

namespace Sys2Proof.Machine

/-! The word of an operation -/

theorem lenField_lt_of_wellFormed {i : Instr} {bits : Nat} (h : i.wellFormed (some bits) = true) :
    i.lenField < 2 ^ bits := by
  cases i with
  | start len => exact of_decide_eq_true h
  | _ => exact Nat.two_pow_pos bits

/-- The code takes the low four bits, the operand the bits above (R51). -/
theorem encodeWord_lt {i : Instr} {bits : Nat} (h : i.wellFormed (some bits) = true) :
    encodeWord i < 2 ^ (bits + 4) := by
  have hcode := i.code.isLt
  have hlen := lenField_lt_of_wellFormed h
  rw [encodeWord, Nat.pow_add]
  omega

theorem encodeWord_start (len : Nat) : encodeWord (.start len) = 1 + 16 * len := rfl

/-! What a word decodes to -/

theorem code_of_decodeWord {w : Nat} {i : Instr} (h : decodeWord w = .ok i) : i.code.toNat = w % 16 := by
  unfold decodeWord at h
  split at h
  case h_11 => cases h
  all_goals
    next hw =>
    cases h
    rw [hw]
    rfl

theorem decodeWord_of_mod_eq_one {w : Nat} (h : w % 16 = 1) : decodeWord w = .ok (.start (w / 16)) := by
  simp only [decodeWord, h]

theorem decodeWord_start_iff {w len : Nat} : decodeWord w = .ok (.start len) ↔ w % 16 = 1 ∧ w / 16 = len := by
  constructor
  · intro h
    have hcode : w % 16 = 1 := (code_of_decodeWord h).symm
    rw [decodeWord_of_mod_eq_one hcode] at h
    cases h
    exact ⟨hcode, rfl⟩
  · rintro ⟨hcode, rfl⟩
    exact decodeWord_of_mod_eq_one hcode

theorem decodeWord_encodeWord_start (len : Nat) : decodeWord (encodeWord (.start len)) = .ok (.start len) := by
  rw [decodeWord_start_iff, encodeWord_start]
  omega

/-- Settles O6, from the two fields of a word: the code below 16, and above it the length of a `START`. -/
theorem decodeAndEncodeAgree : Obligations.DecodeAndEncodeAgree := by
  refine ⟨fun i => ?roundTrip, fun i bits h => encodeWord_lt h, fun w i h => ?oneMeaning⟩
  case roundTrip =>
    cases i with
    | start len => exact decodeWord_encodeWord_start len
    | _ => rfl
  case oneMeaning =>
    cases i with
    | start len =>
      obtain ⟨hcode, rfl⟩ := decodeWord_start_iff.mp h
      rw [encodeWord_start, ← hcode, Nat.mod_add_div]
    | _ => exact code_of_decodeWord h

/-- Settles O8, word by word. -/
theorem wordsOfTheOperationMap : Obligations.WordsOfTheOperationMap :=
  ⟨decodeWord_start_iff.mpr ⟨rfl, rfl⟩, rfl, rfl, rfl, rfl, rfl, rfl, rfl, rfl, rfl, rfl⟩

end Sys2Proof.Machine
end

section
/-! The one form of the input space (spec/20_memory.md section 1): only reset and an accepted `START` write it. -/

namespace Sys2Proof.Machine

theorem exec_keeps_memory_form {i : Instr} {s t : State} (hwf : s.input.wf = true) (h : exec i s = .next t) :
    t.input.wf = true := by
  obtain hsame | ⟨bs, hbound⟩ := exec_next_input h
  · rw [hsame]; exact hwf
  · rw [hbound]; exact Memory.wf_ofBytes bs

/-- Settles O35, by who took the step. -/
theorem stepKeepsTheMemoryForm : Obligations.StepKeepsTheMemoryForm := by
  intro s t hwf h
  obtain ⟨rest, -, rfl⟩ | ⟨i, -, hexec⟩ | ⟨i, -, -, hexec⟩ | ⟨r, rfl⟩ | ⟨-, -, rfl⟩ := step_next h
  case inl => exact Memory.wf_nil
  case inr.inl => exact exec_keeps_memory_form (by simpa using hwf) hexec
  case inr.inr.inl => exact exec_keeps_memory_form (by simpa using hwf) hexec
  case inr.inr.inr.inl => simpa using hwf
  case inr.inr.inr.inr => simpa using hwf

end Sys2Proof.Machine
end

section
/-! Selection (spec/30_encoding.md R50, R53): `Sel` gives an operation exactly where the operation's own rule selects it, and
elsewhere the operation has no meaning. -/

namespace Sys2Proof.Machine

/-- The condition each operation's own rule names under "selected when"; SE issues no host transaction. -/
def State.selects (s : State) : Instr → Prop
  | .start _ => False
  | .rdst => False
  | .rddg => False
  | .absb => s.selectsAbsb
  | .pads => s.selectsPads
  | .pade => s.selectsPade
  | .padb => s.selectsPadb
  | .skip => s.selectsSkip
  | .perm => s.selectsPerm
  | .sqz => s.selectsSqz

theorem State.sel_of_idle {s : State} (h : s.phase = .idle) : s.sel = none := by
  rw [State.sel, h, Machine.sel]

theorem State.sel_of_done {s : State} (h : s.phase = .done) : s.sel = none := by
  rw [State.sel, h, Machine.sel]

/-- `Sel` during absorption, with the offset named (R53). -/
theorem State.sel_of_absorb {s : State} (h : s.phase = .absorb) :
    s.sel =
      if s.pos.toNat > 136 then none
      else if s.pos.toNat = 136 then some .perm
      else if s.offset < s.len then some .absb
      else if s.offset = s.len ∧ s.pos.toNat < 135 then some .pads
      else if s.offset = s.len ∧ s.pos.toNat = 135 then some .padb
      else if s.offset > s.len ∧ s.pos.toNat = 135 then some .pade
      else some .skip := by
  rw [State.sel, h]
  rfl

theorem State.selects_of_sel {s : State} {i : Instr} (h : s.sel = some i) : s.selects i := by
  cases hp : s.phase with
  | idle => rw [State.sel_of_idle hp] at h; cases h
  | done => rw [State.sel_of_done hp] at h; cases h
  | squeeze => rw [State.sel_of_squeeze hp] at h; cases h; exact hp
  | absorb =>
    have hoff : s.offset = 136 * s.window + s.pos.toNat := rfl
    rw [State.sel_of_absorb hp] at h
    repeat' split at h
    all_goals cases h
    all_goals exact ⟨hp, by omega⟩

theorem State.sel_of_selects {s : State} {i : Instr} (h : s.selects i) : s.sel = some i := by
  cases i with
  | start len => cases h
  | rdst => cases h
  | rddg => cases h
  | sqz => exact State.sel_of_squeeze h
  | _ =>
    obtain ⟨hp, hctl⟩ := h
    have hoff : s.offset = 136 * s.window + s.pos.toNat := rfl
    rw [State.sel_of_absorb hp]
    grind

theorem State.sel_eq_some_iff {s : State} {i : Instr} : s.sel = some i ↔ s.selects i :=
  ⟨State.selects_of_sel, State.sel_of_selects⟩

theorem State.sel_eq_none_of_not_busy {s : State} (h : ¬ s.busy) : s.sel = none := by
  cases hp : s.phase with
  | idle => exact State.sel_of_idle hp
  | done => exact State.sel_of_done hp
  | absorb => exact absurd (.inl hp) h
  | squeeze => exact absurd (.inr hp) h

/-- Settles O31, operation by operation. -/
theorem selectionAgreesWithEachOperation : Obligations.SelectionAgreesWithEachOperation := by
  intro s
  refine ⟨State.sel_eq_some_iff, State.sel_eq_some_iff, State.sel_eq_some_iff, State.sel_eq_some_iff,
    State.sel_eq_some_iff, State.sel_eq_some_iff, State.sel_eq_some_iff, ?_⟩
  rintro (hidle | hdone)
  · exact State.sel_of_idle hidle
  · exact State.sel_of_done hdone

/-! The meanings where they are selected, and where they are not -/

theorem exec_absb_of_selectsAbsb {s : State} {b : Byte} (h : s.selectsAbsb) (hb : s.inputByte = some b) :
    exec .absb s = .next ((s.xorAtPos b).advancePos.note (.inRead s.offset)) := by
  rw [exec, execAbsb, if_pos h, hb]

theorem exec_absb_of_missing_byte {s : State} (h : s.selectsAbsb) (hb : s.inputByte = none) :
    exec .absb s = .fault (.inputByteMissing s.offset) := by
  rw [exec, execAbsb, if_pos h, hb]

theorem exec_pads_of_selectsPads {s : State} (h : s.selectsPads) :
    exec .pads s = .next (s.xorAtPos padStart).advancePos :=
  if_pos h

theorem exec_pade_of_selectsPade {s : State} (h : s.selectsPade) :
    exec .pade s = .next (s.xorAtPos padEnd).advancePos :=
  if_pos h

theorem exec_padb_of_selectsPadb {s : State} (h : s.selectsPadb) :
    exec .padb s = .next ((s.xorAtPos padStart).xorAtPos padEnd).advancePos :=
  if_pos h

theorem exec_skip_of_selectsSkip {s : State} (h : s.selectsSkip) : exec .skip s = .next s.advancePos :=
  if_pos h

theorem exec_of_not_selects {s : State} {i : Instr} (hmicro : i.isHost = false) (h : ¬ s.selects i) :
    exec i s = .refused .notSelected := by
  cases i with
  | start len => cases hmicro
  | rdst => cases hmicro
  | rddg => cases hmicro
  | _ => exact if_neg h

/-- Where it is selected, an operation completes, but for a byte the caller did not bind (R54). -/
theorem exec_of_selects {s : State} {i : Instr} (h : s.selects i) :
    (∃ t, exec i s = .next t) ∨ (i = .absb ∧ s.inputByte = none) := by
  cases i with
  | start len => cases h
  | rdst => cases h
  | rddg => cases h
  | absb =>
    cases hb : s.inputByte with
    | none => exact .inr ⟨rfl, rfl⟩
    | some b => exact .inl ⟨_, exec_absb_of_selectsAbsb h hb⟩
  | pads => exact .inl ⟨_, exec_pads_of_selectsPads h⟩
  | pade => exact .inl ⟨_, exec_pade_of_selectsPade h⟩
  | padb => exact .inl ⟨_, exec_padb_of_selectsPadb h⟩
  | skip => exact .inl ⟨_, exec_skip_of_selectsSkip h⟩
  | perm => exact .inl ⟨_, exec_perm_of_selectsPerm h⟩
  | sqz => exact .inl ⟨_, exec_sqz_of_squeeze h⟩

/-! Well-formed control states (R23), by phase -/

theorem State.controlWf_of_absorb {s : State} (hp : s.phase = .absorb) :
    s.controlWf ↔ s.pos.toNat ≤ 136 ∧ s.window ≤ s.len / 136 := by
  simp only [State.controlWf, hp]

theorem State.controlWf_of_squeeze {s : State} (hp : s.phase = .squeeze) :
    s.controlWf ↔ s.window = s.len / 136 ∧ s.pos.toNat = 136 := by
  simp only [State.controlWf, hp]

theorem State.controlWf_of_done {s : State} (hp : s.phase = .done) :
    s.controlWf ↔ s.window = s.len / 136 ∧ s.pos.toNat = 136 := by
  simp only [State.controlWf, hp]

theorem State.controlWf_of_idle {s : State} (hp : s.phase = .idle) : s.controlWf := by
  simp only [State.controlWf, hp]

/-- `Sel` is total on the well-formed states of a run (R54). -/
theorem State.exists_selects {s : State} (hbusy : s.busy) (hwf : s.controlWf) : ∃ i, s.selects i := by
  obtain hp | hp := hbusy
  case inr => exact ⟨.sqz, hp⟩
  case inl =>
    have hpos := ((State.controlWf_of_absorb hp).mp hwf).1
    cases hsel : s.sel with
    | some i => exact ⟨i, State.selects_of_sel hsel⟩
    | none =>
      rw [State.sel_of_absorb hp, if_neg (by omega)] at hsel
      repeat' split at hsel
      all_goals cases hsel

/-- Settles O32, from the totality of `Sel` and the meanings where they are selected and where not. -/
theorem selectionIsTotalAndExact : Obligations.SelectionIsTotalAndExact := by
  refine ⟨fun s hbusy hwf => ?total, fun s i hmicro hsel => ?exact⟩
  case total =>
    obtain ⟨i, hi⟩ := State.exists_selects hbusy hwf
    exact ⟨i, State.sel_of_selects hi, exec_of_selects hi⟩
  case exact => exact exec_of_not_selects hmicro fun h => hsel (State.sel_of_selects h)

end Sys2Proof.Machine
end

section
/-! One step, by whose it is (spec/00_scope.md R5; spec/40_host_transactions.md R65): reset, then HOST, then the engine. -/

namespace Sys2Proof.Machine

/-! Reset asserted or not -/

theorem step_of_reset {s : State} {rest : List Bool} (h : s.resetLine = true :: rest) :
    step s = .next s.passReset.assertReset := by
  simp only [step, State.advance, h]

theorem step_of_no_reset {s : State} (h : s.resetLine.head? ≠ some true) : step s = s.passReset.turnStep := by
  unfold step State.advance
  split
  case h_1 hr => rw [hr] at h; exact absurd rfl h
  case h_2 => rfl

theorem State.passReset_of_nil {s : State} (h : s.resetLine = []) : s.passReset = s := by
  rw [State.passReset, h, List.tail_nil, ← h]

theorem step_of_no_reset_line {s : State} (h : s.resetLine = []) : step s = s.turnStep := by
  rw [step_of_no_reset (by simp [h]), State.passReset_of_nil h]

/-! Whose turn it is -/

theorem State.turn_of_host {s : State} {w : Nat} {buffer : List Byte} {rest : List HostMove} {i : Instr}
    (hport : s.host = .transact w buffer :: rest) (hw : decodeWord w = .ok i) (hhost : i.isHost = true)
    (hfree : s.holds i = false) : s.turn = .host i := by
  simp [State.turn, hport, decodePort, hw, hhost, hfree]

theorem State.turn_of_held {s : State} {w len : Nat} {buffer : List Byte} {rest : List HostMove}
    (hport : s.host = .transact w buffer :: rest) (hw : decodeWord w = .ok (.start len)) (hbusy : s.busy) :
    s.turn = .engine := by
  simp [State.turn, hport, decodePort, hw, Instr.isHost, State.holds, hbusy]

theorem State.turn_of_badWord {s : State} {w : Nat} {buffer : List Byte} {rest : List HostMove} {reason : Refusal}
    (hport : s.host = .transact w buffer :: rest) (hw : decodePort w = .error reason) : s.turn = .badWord reason := by
  simp [State.turn, hport, hw]

theorem State.turn_of_silent {s : State} (h : s.host = []) : s.turn = .engine := by
  simp [State.turn, h]

theorem State.turn_of_idle {s : State} {rest : List HostMove} (h : s.host = .idle :: rest) : s.turn = .engine := by
  simp [State.turn, h]

theorem State.passIdle_of_idle {s : State} {rest : List HostMove} (h : s.host = .idle :: rest) :
    s.passIdle = { s with host := rest } := by
  simp [State.passIdle, h]

theorem State.passIdle_of_silent {s : State} (h : s.host = []) : s.passIdle = s := by
  simp [State.passIdle, h]

theorem State.passIdle_of_transact {s : State} {w : Nat} {buffer : List Byte} {rest : List HostMove}
    (h : s.host = .transact w buffer :: rest) : s.passIdle = s := by
  simp [State.passIdle, h]

/-! What the step does in each turn -/

theorem State.turnStep_of_host {s : State} {i : Instr} (h : s.turn = .host i) : s.turnStep = s.settle (exec i s) := by
  simp only [State.turnStep, h]

theorem State.turnStep_of_badWord {s : State} {reason : Refusal} (h : s.turn = .badWord reason) :
    s.turnStep = .next (s.refuseTransaction reason) := by
  simp only [State.turnStep, h]

theorem State.turnStep_of_engine {s : State} (h : s.turn = .engine) : s.turnStep = s.passIdle.engineStep := by
  simp only [State.turnStep, h]

theorem State.engineStep_of_sel {s : State} {i : Instr} (h : s.sel = some i) : s.engineStep = exec i s := by
  simp only [State.engineStep, h]

theorem State.engineStep_of_no_sel {s : State} (h : s.sel = none) : s.engineStep = .next s := by
  simp only [State.engineStep, h]

@[simp] theorem State.settle_of_next (s t : State) : s.settle (.next t) = .next t := rfl

theorem State.settle_of_refused (s : State) {r : Refusal} (h : r.atPort = true) :
    s.settle (.refused r) = .next (s.refuseTransaction r) :=
  if_pos h

theorem State.refuseTransaction_eq {s : State} {m : HostMove} {rest : List HostMove} (r : Refusal)
    (h : s.host = m :: rest) :
    s.refuseTransaction r = { s with host := rest, replies := s.replies ++ [.refused r] } := by
  rw [State.refuseTransaction, State.reply, State.leavePort, h, List.tail_cons]

/-- Settles O1: it is HOST's turn. -/
theorem stepRunsTheTransactionOnThePort : Obligations.StepRunsTheTransactionOnThePort := by
  intro s w buffer rest i hreset hport hw hhost hfree
  have hturn : s.passReset.turn = .host i := State.turn_of_host (s := s.passReset) hport hw hhost hfree
  have hstep : step s = s.passReset.settle (exec i s.passReset) := by
    rw [step_of_no_reset hreset, State.turnStep_of_host hturn]
  refine ⟨hstep, fun t ht => ?_⟩
  rw [hstep, ht, State.settle_of_next]

/-- Settles O2: it is the engine's turn, with HOST silent, idle or held. -/
theorem stepRunsTheSelectedMicroOperation : Obligations.StepRunsTheSelectedMicroOperation := by
  intro s i hreset hsel
  rw [step_of_no_reset hreset]
  refine ⟨fun hport => ?silent, fun rest hport => ?idle, fun w buffer rest len hport hw hbusy => ?held⟩
  case silent =>
    rw [State.turnStep_of_engine (State.turn_of_silent (s := s.passReset) hport),
      State.passIdle_of_silent (s := s.passReset) hport]
    exact State.engineStep_of_sel hsel
  case idle =>
    rw [State.turnStep_of_engine (State.turn_of_idle (s := s.passReset) hport),
      State.passIdle_of_idle (s := s.passReset) hport]
    exact State.engineStep_of_sel hsel
  case held =>
    rw [State.turnStep_of_engine (State.turn_of_held (s := s.passReset) hport hw hbusy),
      State.passIdle_of_transact (s := s.passReset) hport]
    exact State.engineStep_of_sel hsel

/-- Settles O3, from the values `State.assertReset` sets. -/
theorem resetInputResetsTheBlock : Obligations.ResetInputResetsTheBlock := by
  intro s rest hreset
  refine ⟨_, step_of_reset hreset, fun k _ => ?_, rfl, rfl, rfl, rfl, rfl, State.sel_of_idle rfl, rfl, ?_, rfl⟩
  · rw [State.assertReset_lanes, lane_zeroLanes]
  · rw [State.assertReset_resetLine, State.passReset_resetLine, hreset, List.tail_cons]

/-- Settles O5: `Sel` gives nothing in IDLE and DONE. -/
theorem engineWaitsInIdleAndDone : Obligations.EngineWaitsInIdleAndDone := by
  rintro s hphase ⟨hport, hreset⟩
  have hsel : s.sel = none := hphase.elim State.sel_of_idle State.sel_of_done
  rw [step_of_no_reset_line hreset, State.turnStep_of_engine (State.turn_of_silent hport),
    State.passIdle_of_silent hport, State.engineStep_of_no_sel hsel]

/-! Words that HOST may not issue -/

theorem code_of_isHost {i : Instr} (h : i.isHost = true) : i.code.toNat ∈ [1, 2, 3] := by
  cases i with
  | start len => simp [Instr.code]
  | rdst => decide
  | rddg => decide
  | _ => cases h

theorem decodePort_of_not_host_code {w : Nat} (h : w % 16 ∉ [1, 2, 3]) : decodePort w = .error .reservedOperation := by
  unfold decodePort
  split
  case h_1 i hi =>
    have hmicro : ¬ i.isHost = true := fun hhost => h (code_of_decodeWord hi ▸ code_of_isHost hhost)
    rw [if_neg hmicro]
  case h_2 => rfl

theorem mem_microOperations_of_not_isHost {i : Instr} (h : i.isHost = false) :
    i ∈ [.absb, .pads, .pade, .padb, .skip, .perm, .sqz] := by
  cases i with
  | start len => cases h
  | rdst => cases h
  | rddg => cases h
  | _ => decide

/-- Settles O7: the codes of HOST's transactions are 1, 2 and 3, and `Sel` gives none of them. -/
theorem reservedWordsAreRefused : Obligations.ReservedWordsAreRefused := by
  refine ⟨fun s w buffer rest hreset hport hcode => ?refused, fun s i hsel => ?micro⟩
  case refused =>
    have hnot : w % 16 ∉ [1, 2, 3] := by
      generalize w % 16 = c at hcode
      revert c
      decide
    rw [step_of_no_reset_line hreset,
      State.turnStep_of_badWord (State.turn_of_badWord hport (decodePort_of_not_host_code hnot)),
      State.refuseTransaction_eq _ hport]
  case micro => exact mem_microOperations_of_not_isHost (sel_not_host hsel)

end Sys2Proof.Machine
end

section
/-! The three host transactions (spec/40_host_transactions.md). -/

namespace Sys2Proof.Machine

theorem State.not_busy_iff {s : State} : ¬ s.busy ↔ s.phase = .idle ∨ s.phase = .done := by
  unfold State.busy
  cases s.phase <;> decide

theorem exec_start_of_busy {s : State} (len : Nat) (h : s.busy) : exec (.start len) s = .next s :=
  if_pos h

theorem exec_start_of_fits {s : State} {len : Nat} (hfree : ¬ s.busy) (hfits : lengthFits s.lenw len = true) :
    exec (.start len) s = .next ((s.beginRun len).leavePort.note (.started len)) := by
  rw [exec, execStart, if_neg hfree, if_pos hfits]

theorem exec_start_of_not_fits {s : State} {len : Nat} (hfree : ¬ s.busy) (hlong : ¬ lengthFits s.lenw len = true) :
    exec (.start len) s = .refused .lengthTooLarge := by
  rw [exec, execStart, if_neg hfree, if_neg hlong]

theorem exec_rddg_of_no_digest {s : State} (h : s.phase = .done → s.digest = none) :
    exec .rddg s = .refused .digestNotValid := by
  change execRddg s = _
  unfold execRddg
  split
  case h_1 d hp hd => rw [h hp] at hd; cases hd
  case h_2 => rfl

/-- A step with a transaction on the port that is turned away: the mark, and it leaves the port (R154). -/
theorem step_of_refused {s : State} {w : Nat} {buffer : List Byte} {rest : List HostMove} {i : Instr} {r : Refusal}
    (hreset : s.resetLine = []) (hport : s.host = .transact w buffer :: rest) (hw : decodeWord w = .ok i)
    (hhost : i.isHost = true) (hfree : s.holds i = false) (hexec : exec i s = .refused r) (hr : r.atPort = true) :
    step s = .next { s with host := rest, replies := s.replies ++ [.refused r] } := by
  rw [step_of_no_reset_line hreset, State.turnStep_of_host (State.turn_of_host hport hw hhost hfree), hexec,
    State.settle_of_refused _ hr, State.refuseTransaction_eq _ hport]

theorem State.holds_start_of_not_busy {s : State} (len : Nat) (h : ¬ s.busy) : s.holds (.start len) = false :=
  decide_eq_false h

/-! `START` -/

/-- The bound buffer as `IN` reads it: the first `len` bytes offered (R71; log entry 10). -/
theorem State.read_beginRun (s : State) (len off : Nat) :
    (s.beginRun len).input.read off = if off < len then s.offered[off]? else none := by
  rw [State.beginRun_input, Memory.ofBytes, Memory.read_layOut, if_pos (Nat.zero_le off), Nat.sub_zero,
    List.getElem?_take]

/-- Settles O9, from the registers `State.beginRun` sets. -/
theorem startBeginsTheRun : Obligations.StartBeginsTheRun := by
  intro s len hphase hfits
  refine ⟨_, exec_start_of_fits (State.not_busy_iff.mpr hphase) hfits, fun k _ => ?_, rfl, rfl, rfl, rfl, rfl,
    s.read_beginRun len, rfl, rfl, rfl⟩
  rw [State.note_lanes, State.leavePort_lanes, State.beginRun_lanes, lane_zeroLanes]

/-- Settles O11: the length does not fit, and `lengthTooLarge` is a refusal of the port. -/
theorem startWithTooLargeALengthIsRefused : Obligations.StartWithTooLargeALengthIsRefused := by
  intro s bits len hfree hwidth hlong
  have hfits : ¬ lengthFits s.lenw len = true := by simpa [hwidth, lengthFits] using hlong
  have hexec := exec_start_of_not_fits hfree hfits
  exact ⟨hexec, fun buffer rest hreset hport =>
    step_of_refused hreset hport (decodeWord_encodeWord_start len) rfl (State.holds_start_of_not_busy len hfree) hexec rfl⟩

/-! `RDST`, `RDDG` -/

/-- Settles O12: `RDST` is a reply with the phase's code. -/
theorem rdstReturnsThePhase : Obligations.RdstReturnsThePhase :=
  ⟨rfl, ⟨rfl, rfl, rfl, rfl⟩, fun _ => rfl⟩

/-- Settles O13: `RDDG` leaves the phase and the digest that made it answer. -/
theorem rddgReturnsTheDigest : Obligations.RddgReturnsTheDigest := by
  intro s d hphase hdigest
  have hexec := exec_rddg_of_done hphase hdigest
  refine ⟨hexec, fun t ht => ?_⟩
  rw [hexec] at ht
  cases ht
  exact exec_rddg_of_done (s := s.reply (.digest d)) hphase hdigest

/-- Settles O14: `digestNotValid` is a refusal of the port. -/
theorem rddgOutsideDoneIsRefused : Obligations.RddgOutsideDoneIsRefused := by
  intro s hphase
  have hexec := exec_rddg_of_no_digest fun h => absurd h hphase
  exact ⟨hexec, fun buffer rest hreset hport => step_of_refused hreset hport rfl rfl rfl hexec rfl⟩

/-! No transaction reads `S` -/

theorem exec_start_ignores_lanes (s : State) (len : Nat) (S : Lanes) :
    (∃ t u, exec (.start len) s = .next t ∧ exec (.start len) { s with lanes := S } = .next u ∧
      t = { u with lanes := t.lanes }) ∨
    (exec (.start len) s = .refused .lengthTooLarge ∧
      exec (.start len) { s with lanes := S } = .refused .lengthTooLarge) := by
  by_cases hbusy : s.busy
  · exact .inl ⟨_, _, exec_start_of_busy len hbusy, exec_start_of_busy len hbusy, rfl⟩
  · by_cases hfits : lengthFits s.lenw len = true
    · exact .inl ⟨_, _, exec_start_of_fits hbusy hfits, exec_start_of_fits hbusy hfits, rfl⟩
    · exact .inr ⟨exec_start_of_not_fits hbusy hfits, exec_start_of_not_fits hbusy hfits⟩

theorem exec_rddg_ignores_lanes (s : State) (S : Lanes) :
    (∃ t u, exec .rddg s = .next t ∧ exec .rddg { s with lanes := S } = .next u ∧ t = { u with lanes := t.lanes }) ∨
    (exec .rddg s = .refused .digestNotValid ∧ exec .rddg { s with lanes := S } = .refused .digestNotValid) := by
  by_cases hdone : s.phase = .done ∧ ∃ d, s.digest = some d
  · obtain ⟨hp, d, hd⟩ := hdone
    exact .inl ⟨_, _, exec_rddg_of_done hp hd, exec_rddg_of_done hp hd, rfl⟩
  · have hnone : s.phase = .done → s.digest = none := fun hp =>
      Option.eq_none_iff_forall_not_mem.mpr fun d hd => hdone ⟨hp, d, hd⟩
    exact .inr ⟨exec_rddg_of_no_digest hnone, exec_rddg_of_no_digest hnone⟩

/-- With any other `S` a host transaction answers next alike, or is refused alike. -/
theorem exec_host_ignores_lanes (s : State) (S : Lanes) {i : Instr} (h : i.isHost = true) :
    (∃ t u, exec i s = .next t ∧ exec i { s with lanes := S } = .next u ∧ t = { u with lanes := t.lanes }) ∨
    (∃ r, exec i s = .refused r ∧ exec i { s with lanes := S } = .refused r) := by
  cases i with
  | start len => exact (exec_start_ignores_lanes s len S).imp_right fun hr => ⟨_, hr⟩
  | rdst => exact .inl ⟨_, _, rfl, rfl, rfl⟩
  | rddg => exact (exec_rddg_ignores_lanes s S).imp_right fun hr => ⟨_, hr⟩
  | _ => cases h

/-- Settles O15, transaction by transaction. -/
theorem hostTransactionsDoNotReadTheState : Obligations.HostTransactionsDoNotReadTheState := by
  intro s i S hhost
  obtain ⟨t, u, ht, hu, hframe⟩ | ⟨r, hr, hr'⟩ := exec_host_ignores_lanes s S hhost
  · refine ⟨fun t' ht' => ?_, fun r hr => ?_, fun r hr => ?_⟩
    · rw [ht] at ht'; cases ht'; exact ⟨u, hu, hframe⟩
    · rw [ht] at hr; cases hr
    · rw [ht] at hr; cases hr
  · refine ⟨fun t' ht' => ?_, fun q hq => ?_, fun q hq => ?_⟩
    · rw [hr] at ht'; cases ht'
    · rw [hr] at hq; cases hq; exact hr'
    · rw [hr] at hq; cases hq

end Sys2Proof.Machine
end

section
/-! The laws of `XORB` (spec/41_pad_absorb.md R76), all lane by lane. -/

namespace Sys2Proof.Machine

theorem xorb_zero (S : Lanes) (i : Nat) : xorb S i 0 = S :=
  lanes_ext fun k hk => by
    rw [lane_xorb S i 0 hk]
    simp

theorem xorb_xorb (S : Lanes) (i : Nat) (a b : Byte) : xorb (xorb S i a) i b = xorb S i (a ^^^ b) :=
  lanes_ext fun k hk => by
    rw [lane_xorb _ i b hk, lane_xorb S i a hk, lane_xorb S i (a ^^^ b) hk]
    split
    case isTrue => rw [byteInLane_xor, BitVec.xor_assoc]
    case isFalse => rfl

/-- Any two positions commute, the same one included (R76 (e)). -/
theorem xorb_comm (S : Lanes) (i j : Nat) (a b : Byte) : xorb (xorb S i a) j b = xorb (xorb S j b) i a :=
  lanes_ext fun k hk => by
    simp only [lane_xorb _ _ _ hk]
    split
    case isTrue =>
      split
      case isTrue => rw [BitVec.xor_assoc, BitVec.xor_comm (byteInLane i a), BitVec.xor_assoc]
      case isFalse => rfl
    case isFalse => rfl

/-- Settles O17, law by law. -/
theorem xorbLaws : Obligations.XorbLaws := by
  intro S i j a b _ _
  refine ⟨xorb_zero S i, ?_, xorb_xorb S i a b, xorb_comm S i j a b⟩
  rw [xorb_xorb, BitVec.xor_self]
  exact xorb_zero S i

/-- A rate position reaches no capacity lane (R46). -/
theorem lane_xorb_capacity (S : Lanes) {i k : Nat} (b : Byte) (hi : i ≤ 135) (hcap : 17 ≤ k) (hk : k < 25) :
    lane (xorb S i b) k = lane S k := by
  rw [lane_xorb S i b hk, if_neg (by omega)]

end Sys2Proof.Machine
end

section
/-! The five position operations (spec/41_pad_absorb.md R77 to R82), where they are selected. -/

namespace Sys2Proof.Machine

/-- `I` advances without wrapping: a position is at most 135 (R20, R77). -/
theorem State.toNat_pos_add_one {s : State} (h : s.pos.toNat ≤ 135) : (s.pos + 1).toNat = s.pos.toNat + 1 := by
  rw [BitVec.toNat_add]
  exact Nat.mod_eq_of_lt (by simp; omega)

theorem State.pos_add_one_of_last {s : State} (h : s.pos.toNat = 135) : s.pos + 1 = 136 :=
  BitVec.eq_of_toNat_eq (by rw [State.toNat_pos_add_one h.le, h]; rfl)

/-- Settles O19, from `ABSB` where it is selected and `XORB` in the byte view. -/
theorem absbAbsorbsTheInputByte : Obligations.AbsbAbsorbsTheInputByte := by
  intro s b hphase hpos hoff hbyte
  exact ⟨_, exec_absb_of_selectsAbsb ⟨hphase, hpos, hoff⟩ hbyte, fun _ hj => stateByte_xorb s.lanes b hj,
    State.toNat_pos_add_one hpos, rfl, fun _ => rfl, rfl⟩

/-- Settles O20, from `ABSB` where its byte is missing. -/
theorem absbStopsOnAMissingByte : Obligations.AbsbStopsOnAMissingByte :=
  fun _ hphase hpos hoff hbyte => exec_absb_of_missing_byte ⟨hphase, hpos, hoff⟩ hbyte

/-- Settles O21, from `PADS` where it is selected and `XORB` in the byte view. -/
theorem padsXorsTheStartMarker : Obligations.PadsXorsTheStartMarker := by
  intro s hphase hpos hoff
  exact ⟨_, exec_pads_of_selectsPads ⟨hphase, hpos, hoff⟩, fun _ hj => stateByte_xorb s.lanes padStart hj,
    State.toNat_pos_add_one (s := s) (by omega), rfl⟩

/-- The last position of a window is the top byte of lane 16, the last lane of the rate. -/
theorem lane_xorb_last (S : Lanes) {k : Nat} (b : Byte) (hk : k < 25) :
    lane (xorb S 135 b) k = if k = 16 then lane S k ^^^ byteInLane 135 b else lane S k :=
  lane_xorb S 135 b hk

/-- Settles O22: `PADE` is an `XORB` of the end marker at position 135. -/
theorem padeXorsTheEndMarker : Obligations.PadeXorsTheEndMarker := by
  intro s hphase hpos hoff
  have hplace : byteInLane 135 padEnd = 0x8000000000000000 := by decide
  have hlanes : (s.xorAtPos padEnd).advancePos.lanes = xorb s.lanes 135 padEnd := by
    rw [State.advancePos_lanes, State.xorAtPos_lanes, hpos]
  refine ⟨_, exec_pade_of_selectsPade ⟨hphase, hpos, hoff⟩, fun k hk => ?_, fun j hj => ?_,
    State.pos_add_one_of_last hpos, rfl⟩
  · rw [hlanes, lane_xorb_last _ _ hk, hplace]
  · rw [hlanes, stateByte_xorb _ _ hj, padEnd]

/-- The two markers on one byte are one `XORB` of their sum (R81). -/
theorem State.xorAtPos_padStart_padEnd (s : State) : (s.xorAtPos padStart).xorAtPos padEnd = s.xorAtPos 0x81 := by
  have hmarkers : padStart ^^^ padEnd = 0x81 := by decide
  simp only [State.xorAtPos, xorb_xorb, hmarkers]

/-- Settles O23: `PADB` is an `XORB` of both markers at position 135. -/
theorem padbXorsBothMarkers : Obligations.PadbXorsBothMarkers := by
  intro s hphase hpos hoff
  have hplace : byteInLane 135 0x81 = 0x8100000000000000 := by decide
  have hexec := exec_padb_of_selectsPadb ⟨hphase, hpos, hoff⟩
  have hlanes : (s.xorAtPos 0x81).advancePos.lanes = xorb s.lanes 135 0x81 := by
    rw [State.advancePos_lanes, State.xorAtPos_lanes, hpos]
  rw [State.xorAtPos_padStart_padEnd] at hexec
  refine ⟨_, hexec, fun k hk => ?_, fun j hj => ?_, State.pos_add_one_of_last hpos, rfl⟩
  · rw [hlanes, lane_xorb_last _ _ hk, hplace]
  · rw [hlanes, stateByte_xorb _ _ hj]

/-- Settles O24, from `SKIP` where it is selected. -/
theorem skipOnlyAdvances : Obligations.SkipOnlyAdvances := by
  intro s hphase hpos hoff
  exact ⟨_, exec_skip_of_selectsSkip ⟨hphase, hpos, hoff⟩, State.toNat_pos_add_one (s := s) (by omega), rfl⟩

end Sys2Proof.Machine
end

section
/-! `SQZ` (spec/43_squeeze.md R115, R117): the digest and the lanes it reads. -/

namespace Sys2Proof.Machine

/-- Settles O26, from the bytes of the squeezed digest. -/
theorem sqzReadsOutTheDigest : Obligations.SqzReadsOutTheDigest :=
  fun s hphase => ⟨_, exec_sqz_of_squeeze hphase, ⟨_, rfl, fun _ hj => squeezedDigest_get s.lanes hj⟩, rfl, rfl, rfl⟩

/-- The digest is the bytes of lanes 0 to 3 (R117). -/
theorem squeezedDigest_congr {S T : Lanes} (h : ∀ k < 4, lane S k = lane T k) :
    squeezedDigest S = squeezedDigest T := by
  ext j hj : 1
  rw [squeezedDigest_get S hj, squeezedDigest_get T hj, stateByte, stateByte, h (j / 8) (by omega)]

/-- Settles O28: the two digests are one. -/
theorem digestDependsOnLanesZeroToThree : Obligations.DigestDependsOnLanesZeroToThree := by
  rintro s u S hphase rfl hlanes
  refine ⟨_, _, exec_sqz_of_squeeze hphase, exec_sqz_of_squeeze hphase, ?_⟩
  rw [squeezedDigest_congr hlanes]
  rfl

end Sys2Proof.Machine
end

section
/-! Keccak-f[1600] in matrix coordinates (spec/42_permutation.md R105 to R111). -/

namespace Sys2Proof.Machine

theorem lane_eq_matrixLane (A : Lanes) {x y : Nat} (hx : x < 5) (hy : y < 5) :
    lane A (x + 5 * y) = matrixLane A x y := by
  rw [matrixLane, Nat.mod_eq_of_lt hx, Nat.mod_eq_of_lt hy]

/-- A column's parity as the sum of R107 over the rows. -/
theorem foldl_column (A : Lanes) (x : Nat) :
    (List.range 5).foldl (fun c y => c ^^^ matrixLane A (x % 5) y) 0 = columnParity A x := by
  have hcolumn (y : Nat) : matrixLane A (x % 5) y = matrixLane A x y := matrixLane_congr A (Nat.mod_mod _ _) rfl
  simp [List.range_succ, columnParity, hcolumn]

theorem matrixLane_iota (rc : Lane) (A : Lanes) {x y : Nat} (hx : x < 5) (hy : y < 5) :
    matrixLane (iota rc A) x y = if x = 0 ∧ y = 0 then matrixLane A x y ^^^ rc else matrixLane A x y := by
  have hzero : x + 5 * y = 0 ↔ x = 0 ∧ y = 0 := by omega
  rw [← lane_eq_matrixLane _ hx hy, ← lane_eq_matrixLane _ hx hy, lane_iota rc A (by omega)]
  simp only [hzero]

/-- Settles O30, step by step; the tables of offsets and constants are compared entry by entry. -/
theorem keccakStepsInMatrixCoordinates : Obligations.KeccakStepsInMatrixCoordinates := by
  refine ⟨fun A x y hx hy => ⟨lane_eq_matrixLane A hx hy, ?theta, ?rho, ?pi, ?chi, fun rc => matrixLane_iota rc A hx hy⟩,
    fun A => ?rounds⟩
  case theta => rw [foldl_column, foldl_column, matrixLane_theta]
  case rho =>
    rw [matrixLane_rho A hx hy]
    interval_cases y <;> interval_cases x <;> rfl
  case pi =>
    rw [← matrixLane_piStep A x y]
    exact matrixLane_congr _ rfl (Nat.mod_mod _ _)
  case chi =>
    have hone : matrixLane A ((x + 1) % 5) y = matrixLane A (x + 1) y := matrixLane_congr A (Nat.mod_mod _ _) rfl
    have htwo : matrixLane A ((x + 2) % 5) y = matrixLane A (x + 2) y := matrixLane_congr A (Nat.mod_mod _ _) rfl
    rw [matrixLane_chi, hone, htwo]
  case rounds =>
    rfl

end Sys2Proof.Machine
end

section
/-! Which operation writes what (spec/10_state.md): the phase, the input, the capacity lanes and HOST's side, then the whole
table of writers. -/

namespace Sys2Proof.Machine

/-- The phase edges of R17, each with the operation that takes it. -/
theorem exec_next_phase {i : Instr} {s t : State} (h : exec i s = .next t) :
    t.phase = s.phase ∨
    ((∃ len, i = .start len) ∧ ¬ s.busy ∧ t.phase = .absorb) ∨
    (i = .perm ∧ s.phase = .absorb ∧ t.phase = .squeeze) ∨
    (i = .sqz ∧ s.phase = .squeeze ∧ t.phase = .done) := by
  cases i with
  | start len =>
    obtain ⟨-, rfl⟩ | ⟨hfree, -, rfl⟩ := execStart_next h
    · exact .inl rfl
    · exact .inr (.inl ⟨⟨len, rfl⟩, hfree, rfl⟩)
  | perm =>
    obtain ⟨⟨hphase, -⟩, rfl⟩ := execPerm_next h
    by_cases hfinal : s.window = s.len / 136
    · exact .inr (.inr (.inl ⟨rfl, hphase, by simp [hfinal]⟩))
    · exact .inl (by simp [hfinal])
  | sqz => obtain ⟨hphase, rfl⟩ := execSqz_next h; exact .inr (.inr (.inr ⟨rfl, hphase, rfl⟩))
  | rdst => obtain rfl := execRdst_next h; exact .inl rfl
  | rddg => obtain ⟨d, -, -, rfl⟩ := execRddg_next h; exact .inl rfl
  | absb => obtain ⟨b, -, -, rfl⟩ := execAbsb_next h; exact .inl rfl
  | pads => obtain ⟨-, rfl⟩ := execPads_next h; exact .inl rfl
  | pade => obtain ⟨-, rfl⟩ := execPade_next h; exact .inl rfl
  | padb => obtain ⟨-, rfl⟩ := execPadb_next h; exact .inl rfl
  | skip => obtain ⟨-, rfl⟩ := execSkip_next h; exact .inl rfl

/-- The bound input has one writer, an accepted `START` (R21). -/
theorem exec_next_input_of_ne_start {i : Instr} {s t : State} (h : exec i s = .next t) (hne : ∀ len, i ≠ .start len) :
    t.input = s.input := by
  cases i with
  | start len => exact absurd rfl (hne len)
  | rdst => obtain rfl := execRdst_next h; rfl
  | rddg => obtain ⟨d, -, -, rfl⟩ := execRddg_next h; rfl
  | absb => obtain ⟨b, -, -, rfl⟩ := execAbsb_next h; rfl
  | pads => obtain ⟨-, rfl⟩ := execPads_next h; rfl
  | pade => obtain ⟨-, rfl⟩ := execPade_next h; rfl
  | padb => obtain ⟨-, rfl⟩ := execPadb_next h; rfl
  | skip => obtain ⟨-, rfl⟩ := execSkip_next h; rfl
  | perm => obtain ⟨-, rfl⟩ := execPerm_next h; simp
  | sqz => obtain ⟨-, rfl⟩ := execSqz_next h; rfl

/-- The capacity lanes are out of reach of every operation but `PERM` and `START` (R46); of `SQZ` nothing is said (R118). -/
theorem exec_next_capacity {i : Instr} {s t : State} (h : exec i s = .next t) (hsqz : i ≠ .sqz) (hperm : i ≠ .perm)
    (hstart : ∀ len, i ≠ .start len) {k : Nat} (hcap : 17 ≤ k) (hk : k < 25) : lane t.lanes k = lane s.lanes k := by
  cases i with
  | start len => exact absurd rfl (hstart len)
  | perm => exact absurd rfl hperm
  | sqz => exact absurd rfl hsqz
  | rdst => obtain rfl := execRdst_next h; rfl
  | rddg => obtain ⟨d, -, -, rfl⟩ := execRddg_next h; rfl
  | skip => obtain ⟨-, rfl⟩ := execSkip_next h; rfl
  | absb =>
    obtain ⟨b, ⟨-, hpos, -⟩, -, rfl⟩ := execAbsb_next h
    exact lane_xorb_capacity _ _ hpos hcap hk
  | pads =>
    obtain ⟨⟨-, hpos, -⟩, rfl⟩ := execPads_next h
    exact lane_xorb_capacity _ _ (by omega) hcap hk
  | pade =>
    obtain ⟨⟨-, hpos, -⟩, rfl⟩ := execPade_next h
    exact lane_xorb_capacity _ _ hpos.le hcap hk
  | padb =>
    obtain ⟨⟨-, hpos, -⟩, rfl⟩ := execPadb_next h
    rw [State.xorAtPos_padStart_padEnd]
    exact lane_xorb_capacity _ _ hpos.le hcap hk

/-- Settles O33: the input, the capacity lanes and the platform have lemmas of their own, the rest is read off the state
each operation leaves. -/
theorem registersAreWrittenOnlyByTheirWriters : Obligations.RegistersAreWrittenOnlyByTheirWriters := by
  intro s t i h
  have hinput : t.input ≠ s.input → ∃ len, i = .start len := fun hne =>
    not_forall_not.mp fun hnot => hne (exec_next_input_of_ne_start h hnot)
  have hcapacity : i ≠ .sqz → (∃ k, 17 ≤ k ∧ k < 25 ∧ lane t.lanes k ≠ lane s.lanes k) →
      i = .perm ∨ ∃ len, i = .start len := by
    rintro hsqz ⟨k, hcap, hk, hne⟩
    by_contra hnot
    obtain ⟨hperm, hstart⟩ := not_or.mp hnot
    exact hne (exec_next_capacity h hsqz hperm (not_exists.mp hstart) hcap hk)
  have hphase : t.phase ≠ s.phase → i = .perm ∨ i = .sqz ∨ ∃ len, i = .start len := by
    intro hne
    obtain heq | ⟨hstart, -⟩ | ⟨hperm, -⟩ | ⟨hsqz, -⟩ := exec_next_phase h
    · exact absurd heq hne
    · exact .inr (.inr hstart)
    · exact .inl hperm
    · exact .inr (.inl hsqz)
  suffices hrest :
      (i ≠ .sqz → t.lanes ≠ s.lanes →
        i = .absb ∨ i = .pads ∨ i = .pade ∨ i = .padb ∨ i = .perm ∨ ∃ len, i = .start len) ∧
      (t.digest ≠ s.digest → i = .sqz ∨ ∃ len, i = .start len) ∧
      (t.len ≠ s.len → ∃ len, i = .start len) ∧
      (t.window ≠ s.window → i = .perm ∨ ∃ len, i = .start len) ∧
      (t.pos ≠ s.pos → i ≠ .rdst ∧ i ≠ .rddg ∧ i ≠ .sqz) by
    obtain ⟨hlanes, hdigest, hlen, hwindow, hpos⟩ := hrest
    exact ⟨hlanes, hcapacity, hdigest, hphase, hlen, hwindow, hpos, hinput, exec_next_platform h⟩
  cases i with
  | start len => simp
  | rdst => obtain rfl := execRdst_next h; simp
  | rddg => obtain ⟨d, -, -, rfl⟩ := execRddg_next h; simp
  | absb => obtain ⟨b, -, -, rfl⟩ := execAbsb_next h; simp
  | pads => obtain ⟨-, rfl⟩ := execPads_next h; simp
  | pade => obtain ⟨-, rfl⟩ := execPade_next h; simp
  | padb => obtain ⟨-, rfl⟩ := execPadb_next h; simp
  | skip => obtain ⟨-, rfl⟩ := execSkip_next h; simp
  | perm => obtain ⟨-, rfl⟩ := execPerm_next h; simp
  | sqz => obtain ⟨-, rfl⟩ := execSqz_next h; simp

end Sys2Proof.Machine
end

section
/-! What a step can do to the input and to the phase, whoever takes it. -/

namespace Sys2Proof.Machine

theorem ne_start_of_not_isHost {i : Instr} (h : i.isHost = false) (len : Nat) : i ≠ .start len := by
  rintro rfl
  cases h

/-- Settles O34: a run in progress holds every `START`. -/
theorem theRunsInputNeverChanges : Obligations.TheRunsInputNeverChanges := by
  intro s t h hbusy hreset off
  suffices hinput : t.input = s.input by rw [hinput]
  obtain ⟨rest, hline, -⟩ | ⟨i, hturn, hexec⟩ | ⟨i, -, hsel, hexec⟩ | ⟨r, rfl⟩ | ⟨-, -, rfl⟩ := step_next h
  case inl => rw [hline] at hreset; exact absurd rfl hreset
  case inr.inl =>
    obtain ⟨w, buffer, rest, -, -, -, hfree⟩ := State.turn_host hturn
    refine exec_next_input_of_ne_start (s := s.passReset) hexec fun len hstart => ?_
    subst hstart
    exact of_decide_eq_false hfree hbusy
  case inr.inr.inl =>
    rw [exec_next_input_of_ne_start hexec (ne_start_of_not_isHost (sel_not_host hsel)), State.passIdle_input,
      State.passReset_input]
  case inr.inr.inr.inl => simp
  case inr.inr.inr.inr => simp

/-- Settles O36: an operation takes one of the edges, and only HOST's own turn takes that into ABSORB. -/
theorem phaseMovesOnlyForward : Obligations.PhaseMovesOnlyForward := by
  intro s t h hne
  obtain ⟨rest, hline, rfl⟩ | ⟨i, hturn, hexec⟩ | ⟨i, -, hsel, hexec⟩ | ⟨r, rfl⟩ | ⟨-, -, rfl⟩ := step_next h
  case inl => exact .inl ⟨rfl, rest, hline⟩
  case inr.inl =>
    obtain ⟨w, buffer, rest, hport, hw, hhost, -⟩ := State.turn_host hturn
    obtain heq | ⟨⟨len, rfl⟩, hfree, ht⟩ | ⟨rfl, -⟩ | ⟨rfl, -⟩ := exec_next_phase hexec
    · exact absurd heq hne
    · exact .inr (.inl ⟨ht, State.not_busy_iff.mp hfree, w, buffer, rest, len, hport, hw⟩)
    · cases hhost
    · cases hhost
  case inr.inr.inl =>
    have hmicro := sel_not_host hsel
    obtain heq | ⟨⟨len, rfl⟩, -⟩ | ⟨-, hs, ht⟩ | ⟨-, hs, ht⟩ := exec_next_phase hexec
    · exact absurd (by simpa using heq) hne
    · cases hmicro
    · exact .inr (.inr (.inl ⟨ht, by simpa using hs⟩))
    · exact .inr (.inr (.inr ⟨ht, by simpa using hs⟩))
  case inr.inr.inr.inl => simp at hne
  case inr.inr.inr.inr => simp at hne

end Sys2Proof.Machine
end

section
/-! The engine's next state in closed form: in a well-formed run on `m`, whatever `S` holds, the engine's step is a function
of the state and of `m`. -/

namespace Sys2Proof.Machine

/-! The byte a position receives (R89), case by case -/

theorem paddedByte_of_lt {m : List Byte} {off : Nat} (h : off < m.length) : paddedByte m off = m[off] := by
  rw [paddedByte, if_pos h, List.getD_eq_getElem _ _ h]

theorem paddedByte_length (m : List Byte) :
    paddedByte m m.length = if m.length % 136 = 135 then 0x81 else 0x01 := by
  rw [paddedByte, if_neg (Nat.lt_irrefl _), if_pos rfl]

theorem paddedByte_of_gt {m : List Byte} {off : Nat} (h : m.length < off) :
    paddedByte m off = if off % 136 = 135 then 0x80 else 0x00 := by
  rw [paddedByte, if_neg (by omega), if_neg (by omega)]

/-! Positions -/

theorem State.offset_mod {s : State} (h : s.pos.toNat ≤ 135) : s.offset % 136 = s.pos.toNat := by
  unfold State.offset
  omega

/-- The external events of the operation at an input offset: the `IN` read of `ABSB` (R45). -/
def positionEvents (len off : Nat) : List Event :=
  if off < len then [.inRead off] else []

/-- A position operation of a run on `m`: the position receives its padded byte, `I` advances, and the read is recorded
where there is one. -/
def State.passPosition (s : State) (m : List Byte) : State :=
  { (s.xorAtPos (paddedByte m s.offset)).advancePos with events := s.events ++ positionEvents s.len s.offset }

theorem State.passPosition_of_padding {s : State} (m : List Byte) (h : s.len ≤ s.offset) :
    s.passPosition m = (s.xorAtPos (paddedByte m s.offset)).advancePos := by
  rw [State.passPosition, positionEvents, if_neg (by omega), List.append_nil]
  rfl

theorem State.runsOn_inputByte {s : State} {m : List Byte} (hm : s.runsOn m) (h : s.offset < s.len) :
    s.inputByte = some (paddedByte m s.offset) := by
  obtain ⟨hlen, hinput⟩ := hm
  rw [← hlen] at h
  rw [State.inputByte, hinput, Memory.ofBytes, Memory.read_layOut, if_pos (Nat.zero_le _), Nat.sub_zero,
    paddedByte_of_lt h, List.getElem?_eq_getElem h]

/-- Whichever position operation is selected, its effect is the one of R89. -/
theorem exec_eq_passPosition {s : State} {m : List Byte} {i : Instr} (hm : s.runsOn m) (hphase : s.phase = .absorb)
    (hpos : s.pos.toNat ≤ 135) (hi : s.selects i) : exec i s = .next (s.passPosition m) := by
  have hmod := State.offset_mod hpos
  have hlen := hm.1
  cases i with
  | start len => cases hi
  | rdst => cases hi
  | rddg => cases hi
  | absb =>
    obtain ⟨-, -, hoff⟩ := id hi
    rw [exec_absb_of_selectsAbsb hi (State.runsOn_inputByte hm hoff), State.passPosition, positionEvents, if_pos hoff]
    rfl
  | pads =>
    obtain ⟨-, hearly, hoff⟩ := id hi
    have hbyte : paddedByte m s.offset = padStart := by
      rw [hoff, ← hlen, paddedByte_length, hlen, ← hoff, hmod, if_neg (by omega), padStart]
    rw [exec_pads_of_selectsPads hi, State.passPosition_of_padding m hoff.ge, hbyte]
  | padb =>
    obtain ⟨-, hlast, hoff⟩ := id hi
    have hoff : s.offset = s.len := by rw [State.offset, hlast, hoff]
    have hbyte : paddedByte m s.offset = 0x81 := by
      rw [hoff, ← hlen, paddedByte_length, hlen, ← hoff, hmod, if_pos hlast]
    rw [exec_padb_of_selectsPadb hi, State.passPosition_of_padding m hoff.ge, hbyte, State.xorAtPos_padStart_padEnd]
  | pade =>
    obtain ⟨-, hlast, hoff⟩ := id hi
    have hoff : s.len < s.offset := by rw [State.offset, hlast]; exact hoff
    have hbyte : paddedByte m s.offset = padEnd := by
      rw [paddedByte_of_gt (hlen ▸ hoff), hmod, if_pos hlast, padEnd]
    rw [exec_pade_of_selectsPade hi, State.passPosition_of_padding m hoff.le, hbyte]
  | skip =>
    obtain ⟨-, hearly, hoff⟩ := id hi
    have hbyte : paddedByte m s.offset = 0 := by
      rw [paddedByte_of_gt (hlen ▸ hoff), hmod, if_neg (by omega)]
    rw [exec_skip_of_selectsSkip hi, State.passPosition_of_padding m hoff.le, hbyte, State.xorAtPos, xorb_zero]
  | perm =>
    obtain ⟨-, hend⟩ := hi
    omega
  | sqz =>
    have hsqueeze : s.phase = .squeeze := hi
    rw [hphase] at hsqueeze
    cases hsqueeze

/-! The next state -/

/-- The state the engine's step leaves in a run on `m` (R54): the position, or the permutation, or the digest; outside a run
nothing changes. -/
def State.engineNext (m : List Byte) (s : State) : State :=
  match s.phase with
  | .idle => s
  | .absorb => if s.pos.toNat = 136 then s.permuteLanes.endWindow.note .permCall else s.passPosition m
  | .squeeze => { s with digest := some (squeezedDigest s.lanes), phase := .done }.note .digestReady
  | .done => s

theorem State.engineNext_of_not_busy {s : State} (m : List Byte) (h : ¬ s.busy) : s.engineNext m = s := by
  obtain hp | hp := State.not_busy_iff.mp h <;> rw [State.engineNext, hp]

theorem State.engineNext_of_position {s : State} (m : List Byte) (hphase : s.phase = .absorb)
    (hpos : s.pos.toNat ≤ 135) : s.engineNext m = s.passPosition m := by
  simp only [State.engineNext, hphase]
  exact if_neg (by omega)

theorem State.engineNext_of_perm {s : State} (m : List Byte) (h : s.selectsPerm) :
    s.engineNext m = s.permuteLanes.endWindow.note .permCall := by
  simp only [State.engineNext, h.1]
  exact if_pos h.2

theorem State.engineNext_of_squeeze {s : State} (m : List Byte) (h : s.phase = .squeeze) :
    s.engineNext m = { s with digest := some (squeezedDigest s.lanes), phase := .done }.note .digestReady := by
  simp only [State.engineNext, h]

/-- Where a well-formed run can stand, one case for each way the engine goes on. -/
theorem State.run_cases {s : State} (hbusy : s.busy) (hwf : s.controlWf) :
    (s.phase = .absorb ∧ s.pos.toNat ≤ 135 ∧ s.window ≤ s.len / 136) ∨
    (s.selectsPerm ∧ s.window < s.len / 136) ∨
    (s.selectsPerm ∧ s.window = s.len / 136) ∨
    (s.phase = .squeeze ∧ s.pos.toNat = 136 ∧ s.window = s.len / 136) := by
  obtain hp | hp := hbusy
  · obtain ⟨hpos, hwindow⟩ := (State.controlWf_of_absorb hp).mp hwf
    by_cases hend : s.pos.toNat = 136
    · obtain hlt | heq := hwindow.lt_or_eq
      · exact .inr (.inl ⟨⟨hp, hend⟩, hlt⟩)
      · exact .inr (.inr (.inl ⟨⟨hp, hend⟩, heq⟩))
    · exact .inl ⟨hp, by omega, hwindow⟩
  · obtain ⟨hwindow, hpos⟩ := (State.controlWf_of_squeeze hp).mp hwf
    exact .inr (.inr (.inr ⟨hp, hpos, hwindow⟩))

/-- In a well-formed run the engine's step never stops (R54). -/
theorem State.engineStep_eq {s : State} {m : List Byte} (hwf : s.controlWf) (hm : s.busy → s.runsOn m) :
    s.engineStep = .next (s.engineNext m) := by
  by_cases hbusy : s.busy
  case neg =>
    rw [State.engineStep_of_no_sel (State.sel_eq_none_of_not_busy hbusy), State.engineNext_of_not_busy m hbusy]
  case pos =>
    obtain ⟨i, hi⟩ := State.exists_selects hbusy hwf
    rw [State.engineStep_of_sel (State.sel_of_selects hi)]
    obtain ⟨hphase, hpos, -⟩ | ⟨hperm, -⟩ | ⟨hperm, -⟩ | ⟨hphase, -⟩ := State.run_cases hbusy hwf
    · rw [State.engineNext_of_position m hphase hpos, exec_eq_passPosition (hm hbusy) hphase hpos hi]
    · obtain rfl : i = .perm := Option.some.inj ((State.sel_of_selects hi).symm.trans (State.sel_of_selects hperm))
      rw [State.engineNext_of_perm m hperm, exec_perm_of_selectsPerm hperm]
    · obtain rfl : i = .perm := Option.some.inj ((State.sel_of_selects hi).symm.trans (State.sel_of_selects hperm))
      rw [State.engineNext_of_perm m hperm, exec_perm_of_selectsPerm hperm]
    · obtain rfl : i = .sqz := Option.some.inj ((State.sel_of_selects hi).symm.trans (State.sel_of_squeeze hphase))
      rw [State.engineNext_of_squeeze m hphase, exec_sqz_of_squeeze hphase]

/-! What the engine leaves alone -/

theorem State.engineNext_frame (m : List Byte) (s : State) :
    ∃ S d p W I ev, s.engineNext m =
      { s with lanes := S, digest := d, phase := p, window := W, pos := I, events := ev } := by
  unfold State.engineNext
  split
  · exact ⟨_, _, _, _, _, _, rfl⟩
  · split
    · unfold State.endWindow
      split
      · exact ⟨_, _, _, _, _, _, rfl⟩
      · exact ⟨_, _, _, _, _, _, rfl⟩
    · exact ⟨_, _, _, _, _, _, rfl⟩
  · exact ⟨_, _, _, _, _, _, rfl⟩
  · exact ⟨_, _, _, _, _, _, rfl⟩

@[simp] theorem State.engineNext_len (m : List Byte) (s : State) : (s.engineNext m).len = s.len := by
  obtain ⟨S, d, p, W, I, ev, h⟩ := s.engineNext_frame m; rw [h]
@[simp] theorem State.engineNext_input (m : List Byte) (s : State) : (s.engineNext m).input = s.input := by
  obtain ⟨S, d, p, W, I, ev, h⟩ := s.engineNext_frame m; rw [h]
@[simp] theorem State.engineNext_provider (m : List Byte) (s : State) : (s.engineNext m).provider = s.provider := by
  obtain ⟨S, d, p, W, I, ev, h⟩ := s.engineNext_frame m; rw [h]
@[simp] theorem State.engineNext_lenw (m : List Byte) (s : State) : (s.engineNext m).lenw = s.lenw := by
  obtain ⟨S, d, p, W, I, ev, h⟩ := s.engineNext_frame m; rw [h]
@[simp] theorem State.engineNext_resetLine (m : List Byte) (s : State) : (s.engineNext m).resetLine = s.resetLine := by
  obtain ⟨S, d, p, W, I, ev, h⟩ := s.engineNext_frame m; rw [h]
@[simp] theorem State.engineNext_host (m : List Byte) (s : State) : (s.engineNext m).host = s.host := by
  obtain ⟨S, d, p, W, I, ev, h⟩ := s.engineNext_frame m; rw [h]

theorem State.runsOn_engineNext {s : State} {m : List Byte} (h : s.runsOn m) : (s.engineNext m).runsOn m := by
  rw [State.runsOn, State.engineNext_len, State.engineNext_input]
  exact h

/-! The next state, case by case -/

theorem State.passPosition_pos {s : State} (m : List Byte) (h : s.pos.toNat ≤ 135) :
    (s.passPosition m).pos.toNat = s.pos.toNat + 1 :=
  State.toNat_pos_add_one h

@[simp] theorem State.passPosition_phase (s : State) (m : List Byte) : (s.passPosition m).phase = s.phase := rfl
@[simp] theorem State.passPosition_window (s : State) (m : List Byte) : (s.passPosition m).window = s.window := rfl
@[simp] theorem State.passPosition_len (s : State) (m : List Byte) : (s.passPosition m).len = s.len := rfl
@[simp] theorem State.passPosition_provider (s : State) (m : List Byte) : (s.passPosition m).provider = s.provider := rfl
@[simp] theorem State.passPosition_lanes (s : State) (m : List Byte) :
    (s.passPosition m).lanes = xorb s.lanes s.pos.toNat (paddedByte m s.offset) := rfl
@[simp] theorem State.passPosition_events (s : State) (m : List Byte) :
    (s.passPosition m).events = s.events ++ positionEvents s.len s.offset := rfl

/-- `PERM` where it does not end absorption (R96). -/
theorem State.engineNext_of_nextWindow {s : State} (m : List Byte) (h : s.selectsPerm) (hmore : s.window < s.len / 136) :
    s.engineNext m = { s.permuteLanes with window := s.window + 1, pos := 0 }.note .permCall := by
  have hnot : ¬ s.permuteLanes.inFinalWindow := hmore.ne
  rw [State.engineNext_of_perm m h, State.endWindow, if_neg hnot, State.permuteLanes_window]

/-- `PERM` where it ends absorption (R96). -/
theorem State.engineNext_of_finalWindow {s : State} (m : List Byte) (h : s.selectsPerm)
    (hfinal : s.window = s.len / 136) :
    s.engineNext m = { s.permuteLanes with phase := .squeeze }.note .permCall := by
  have hin : s.permuteLanes.inFinalWindow := hfinal
  rw [State.engineNext_of_perm m h, State.endWindow, if_pos hin]

theorem State.controlWf_engineNext {s : State} (m : List Byte) (hwf : s.controlWf) : (s.engineNext m).controlWf := by
  by_cases hbusy : s.busy
  case neg => rwa [State.engineNext_of_not_busy m hbusy]
  case pos =>
    obtain ⟨hphase, hpos, hwindow⟩ | ⟨hperm, hmore⟩ | ⟨hperm, hfinal⟩ | ⟨hphase, hpos, hwindow⟩ :=
      State.run_cases hbusy hwf
    · rw [State.engineNext_of_position m hphase hpos]
      refine (State.controlWf_of_absorb (by exact hphase)).mpr ⟨?_, hwindow⟩
      rw [State.passPosition_pos m hpos]
      omega
    · rw [State.engineNext_of_nextWindow m hperm hmore]
      exact (State.controlWf_of_absorb (by exact hperm.1)).mpr ⟨Nat.zero_le _, hmore⟩
    · rw [State.engineNext_of_finalWindow m hperm hfinal]
      exact (State.controlWf_of_squeeze rfl).mpr ⟨hfinal, hperm.2⟩
    · rw [State.engineNext_of_squeeze m hphase]
      exact (State.controlWf_of_done rfl).mpr ⟨hwindow, hpos⟩

theorem State.phase_engineNext_ne_idle {s : State} (m : List Byte) (h : s.phase ≠ .idle) :
    (s.engineNext m).phase ≠ .idle := by
  unfold State.engineNext
  split
  case h_1 hp => exact absurd hp h
  case h_2 hp =>
    split
    · simp only [State.note_phase, State.endWindow_phase, State.permuteLanes_phase, hp]
      split <;> decide
    · rw [State.passPosition_phase, hp]
      decide
  case h_3 => simp
  case h_4 hp => rw [hp]; decide

/-! The steps still to come (R128) -/

theorem State.remainingSteps_of_absorb {s : State} (h : s.phase = .absorb) :
    s.remainingSteps = 137 * (windowCount s.len - s.window) - s.pos.toNat + 1 := by
  simp only [State.remainingSteps, h]

theorem State.remainingSteps_of_squeeze {s : State} (h : s.phase = .squeeze) : s.remainingSteps = 1 := by
  simp only [State.remainingSteps, h]

theorem State.remainingSteps_eq_zero_iff {s : State} : s.remainingSteps = 0 ↔ ¬ s.busy := by
  cases hp : s.phase <;> simp [State.remainingSteps, hp]

theorem State.remainingSteps_engineNext {s : State} (m : List Byte) (hbusy : s.busy) (hwf : s.controlWf) :
    (s.engineNext m).remainingSteps + 1 = s.remainingSteps := by
  obtain ⟨hphase, hpos, hwindow⟩ | ⟨hperm, hmore⟩ | ⟨hperm, hfinal⟩ | ⟨hphase, -, -⟩ := State.run_cases hbusy hwf
  · rw [State.engineNext_of_position m hphase hpos, State.remainingSteps_of_absorb hphase,
      State.remainingSteps_of_absorb (s := s.passPosition m) hphase, State.passPosition_pos m hpos,
      State.passPosition_len, State.passPosition_window, windowCount]
    omega
  · have hpos := hperm.2
    rw [State.engineNext_of_nextWindow m hperm hmore, State.remainingSteps_of_absorb hperm.1,
      State.remainingSteps_of_absorb (by exact hperm.1)]
    simp only [State.note_len, State.note_window, State.note_pos, State.permuteLanes_len, windowCount,
      BitVec.ofNat_eq_ofNat, BitVec.toNat_ofNat]
    omega
  · have hpos := hperm.2
    rw [State.engineNext_of_finalWindow m hperm hfinal, State.remainingSteps_of_absorb hperm.1,
      State.remainingSteps_of_squeeze rfl, windowCount]
    omega
  · rw [State.engineNext_of_squeeze m hphase, State.remainingSteps_of_squeeze hphase]
    rfl

/-! What `S` and `D` hold (R89, R125) -/

theorem State.progressOn_of_idle {s : State} {m : List Byte} (h : s.phase = .idle) :
    s.progressOn m ↔ s.lanes = zeroLanes ∧ s.digest = none := by
  simp only [State.progressOn, h]

theorem State.progressOn_of_absorb {s : State} {m : List Byte} (h : s.phase = .absorb) :
    s.progressOn m ↔
      s.lanes = absorbPositions m s.window s.pos.toNat (absorbWindows s.provider.apply m s.window) ∧
        s.digest = none := by
  simp only [State.progressOn, h]

theorem State.progressOn_of_squeeze {s : State} {m : List Byte} (h : s.phase = .squeeze) :
    s.progressOn m ↔ s.lanes = absorbWindows s.provider.apply m (windowCount m.length) ∧ s.digest = none := by
  simp only [State.progressOn, h]

theorem State.progressOn_of_done {s : State} {m : List Byte} (h : s.phase = .done) :
    s.progressOn m ↔ s.digest = some (keccak256 s.provider.apply m) := by
  simp only [State.progressOn, h]

/-- Each step takes `S` and `D` one step further along the closed form. -/
theorem State.progressOn_engineNext {s : State} {m : List Byte} (hwf : s.controlWf) (hlen : s.busy → m.length = s.len)
    (h : s.progressOn m) : (s.engineNext m).progressOn m := by
  by_cases hbusy : s.busy
  case neg => rwa [State.engineNext_of_not_busy m hbusy]
  case pos =>
    obtain ⟨hphase, hpos, -⟩ | ⟨hperm, hmore⟩ | ⟨hperm, hfinal⟩ | ⟨hphase, -, -⟩ := State.run_cases hbusy hwf
    · obtain ⟨hlanes, hdigest⟩ := (State.progressOn_of_absorb hphase).mp h
      rw [State.engineNext_of_position m hphase hpos]
      refine (State.progressOn_of_absorb (by exact hphase)).mpr ⟨?_, hdigest⟩
      rw [State.passPosition_pos m hpos, State.passPosition_lanes, absorbPositions, State.passPosition_window,
        State.passPosition_provider, ← hlanes, State.offset]
    · obtain ⟨hlanes, hdigest⟩ := (State.progressOn_of_absorb hperm.1).mp h
      rw [hperm.2] at hlanes
      rw [State.engineNext_of_nextWindow m hperm hmore]
      exact (State.progressOn_of_absorb (by exact hperm.1)).mpr ⟨congrArg s.provider.apply hlanes, hdigest⟩
    · obtain ⟨hlanes, hdigest⟩ := (State.progressOn_of_absorb hperm.1).mp h
      rw [hperm.2, hfinal] at hlanes
      rw [State.engineNext_of_finalWindow m hperm hfinal]
      refine (State.progressOn_of_squeeze rfl).mpr ⟨?_, hdigest⟩
      rw [windowCount, hlen hbusy]
      exact congrArg s.provider.apply hlanes
    · obtain ⟨hlanes, -⟩ := (State.progressOn_of_squeeze hphase).mp h
      rw [State.engineNext_of_squeeze m hphase]
      exact (State.progressOn_of_done rfl).mpr (congrArg (fun S => some (squeezedDigest S)) hlanes)

end Sys2Proof.Machine
end

section
/-! The run invariant (spec/10_state.md R23; spec/44_composite.md): reset meets it, every step keeps it, and under it no step
stops. -/

namespace Sys2Proof.Machine

@[simp] theorem lengthFits_zero (lenw : Option Nat) : lengthFits lenw 0 = true := by
  cases lenw with
  | none => rfl
  | some bits => exact decide_eq_true (Nat.two_pow_pos bits)

/-! Updates that keep the invariant -/

/-- The invariant looks at HOST's side only for the transactions still to come. -/
theorem State.RunInv.of_host_frame {s t : State} (h : s.RunInv) (hsub : t.host ⊆ s.host)
    (hframe : t = { s with host := t.host, resetLine := t.resetLine, replies := t.replies, events := t.events }) :
    t.RunInv := by
  have hduty : t.hostDuty := fun w buffer len hmem => h.duty w buffer len (hsub hmem)
  rw [hframe] at hduty ⊢
  exact ⟨hduty, h.fits, h.control, h.run⟩

theorem State.RunInv.passReset {s : State} (h : s.RunInv) : s.passReset.RunInv :=
  h.of_host_frame (List.Subset.refl _) rfl

theorem State.RunInv.reply {s : State} (h : s.RunInv) (r : Reply) : (s.reply r).RunInv :=
  h.of_host_frame (List.tail_subset _) rfl

theorem State.RunInv.passIdle {s : State} (h : s.RunInv) : s.passIdle.RunInv := by
  unfold State.passIdle
  split
  case h_1 rest hport =>
    refine h.of_host_frame ?_ rfl
    rw [hport]
    exact List.subset_cons_self _ _
  case h_2 => exact h

/-- After reset the invariant asks for HOST's duty only. -/
theorem State.runInv_assertReset {s : State} (hduty : s.hostDuty) : s.assertReset.RunInv where
  duty := hduty
  fits := lengthFits_zero s.lenw
  control := State.controlWf_of_idle rfl
  run := ⟨[], fun hne => absurd rfl hne, (State.progressOn_of_idle rfl).mpr ⟨rfl, rfl⟩⟩

theorem State.hostDuty_of_tail {s : State} (h : s.hostDuty) : s.leavePort.hostDuty :=
  fun w buffer len hmem => h w buffer len (List.mem_of_mem_tail hmem)

/-- An accepted `START`, its buffer as long as HOST owes it, opens a run on the first `len` bytes of the buffer. -/
theorem State.RunInv.start {s : State} {w len : Nat} {buffer : List Byte} {rest : List HostMove} (hduty : s.hostDuty)
    (hport : s.host = .transact w buffer :: rest) (hw : decodeWord w = .ok (.start len))
    (hfits : lengthFits s.lenw len = true) : ((s.beginRun len).leavePort.note (.started len)).RunInv where
  duty := State.hostDuty_of_tail hduty
  fits := hfits
  control := (State.controlWf_of_absorb rfl).mpr ⟨Nat.zero_le _, Nat.zero_le _⟩
  run := by
    have hlong : len ≤ buffer.length := hduty w buffer len (by rw [hport]; exact List.mem_cons_self) hw
    have hoffered : s.offered = buffer := by rw [State.offered, hport]
    refine ⟨s.offered.take len, fun _ => ⟨?_, rfl⟩, (State.progressOn_of_absorb rfl).mpr ⟨rfl, rfl⟩⟩
    rw [hoffered, List.length_take, Nat.min_eq_left hlong]
    rfl

theorem State.ne_idle_of_busy {s : State} (h : s.busy) : s.phase ≠ .idle := by
  obtain hp | hp := h <;> rw [hp] <;> decide

/-- The engine's step in a machine that meets the invariant. -/
theorem State.RunInv.engineStep {s : State} (h : s.RunInv) : ∃ t, s.engineStep = .next t ∧ t.RunInv := by
  obtain ⟨hduty, hfits, hwf, m, hruns, hprogress⟩ := h
  have hbusy : s.busy → s.runsOn m := fun hb => hruns (State.ne_idle_of_busy hb)
  refine ⟨s.engineNext m, State.engineStep_eq hwf hbusy, ?_, ?_, State.controlWf_engineNext m hwf, m, fun hne => ?_,
    State.progressOn_engineNext hwf (fun hb => (hbusy hb).1) hprogress⟩
  · rw [State.hostDuty, State.engineNext_host]
    exact hduty
  · rw [State.engineNext_lenw, State.engineNext_len, hfits]
  · by_cases hidle : s.phase = .idle
    · rw [State.engineNext_of_not_busy m (State.not_busy_iff.mpr (.inl hidle))] at hne
      exact absurd hidle hne
    · exact State.runsOn_engineNext (hruns hidle)

/-- HOST's turn in a machine that meets the invariant. -/
theorem State.RunInv.exec_host {s t : State} {i : Instr} (h : s.RunInv) (hturn : s.turn = .host i)
    (hexec : exec i s = .next t) : t.RunInv := by
  obtain ⟨w, buffer, rest, hport, hw, hhost, -⟩ := State.turn_host hturn
  cases i with
  | start len =>
    obtain ⟨-, rfl⟩ | ⟨-, hfits, rfl⟩ := execStart_next hexec
    · exact h
    · exact State.RunInv.start h.duty hport hw hfits
  | rdst => obtain rfl := execRdst_next hexec; exact h.reply _
  | rddg => obtain ⟨d, -, -, rfl⟩ := execRddg_next hexec; exact h.reply _
  | _ => cases hhost

/-- Settles O37: the reset state is the one that asserting reset gives, with nothing issued. -/
theorem resetMeetsTheRunInvariant : Obligations.ResetMeetsTheRunInvariant :=
  State.runInv_assertReset (s := State.reset) fun _ _ _ hmem => nomatch hmem

/-- Settles O38, by who took the step. -/
theorem stepKeepsTheRunInvariant : Obligations.StepKeepsTheRunInvariant := by
  intro s t h hstep
  have hpass := h.passReset
  obtain ⟨rest, -, rfl⟩ | ⟨i, hturn, hexec⟩ | ⟨i, -, hsel, hexec⟩ | ⟨r, rfl⟩ | ⟨-, -, rfl⟩ := step_next hstep
  case inl => exact State.runInv_assertReset hpass.duty
  case inr.inl => exact hpass.exec_host hturn hexec
  case inr.inr.inl =>
    obtain ⟨u, hu, hinv⟩ := hpass.passIdle.engineStep
    rw [State.engineStep_of_sel hsel, hexec] at hu
    cases hu
    exact hinv
  case inr.inr.inr.inl => exact hpass.reply _
  case inr.inr.inr.inr => exact hpass.passIdle

/-! No step stops -/

/-- A host transaction answers next, or is refused with a mark that the port can take. -/
theorem exec_host_outcome (s : State) {i : Instr} (h : i.isHost = true) :
    (∃ t, exec i s = .next t) ∨ ∃ r, exec i s = .refused r ∧ r.atPort = true := by
  cases i with
  | start len =>
    by_cases hbusy : s.busy
    · exact .inl ⟨_, exec_start_of_busy len hbusy⟩
    · by_cases hfits : lengthFits s.lenw len = true
      · exact .inl ⟨_, exec_start_of_fits hbusy hfits⟩
      · exact .inr ⟨_, exec_start_of_not_fits hbusy hfits, rfl⟩
  | rdst => exact .inl ⟨_, rfl⟩
  | rddg =>
    obtain ⟨t, u, ht, -⟩ | ⟨hr, -⟩ := exec_rddg_ignores_lanes s s.lanes
    · exact .inl ⟨t, ht⟩
    · exact .inr ⟨_, hr, rfl⟩
  | _ => cases h

theorem State.settle_answers_next (s : State) {i : Instr} (h : i.isHost = true) :
    ∃ t, s.settle (exec i s) = .next t := by
  obtain ⟨t, ht⟩ | ⟨r, hr, hport⟩ := exec_host_outcome s h
  · exact ⟨t, by rw [ht, State.settle_of_next]⟩
  · exact ⟨_, by rw [hr, State.settle_of_refused s hport]⟩

theorem State.RunInv.turnStep {s : State} (h : s.RunInv) : ∃ t, s.turnStep = .next t := by
  cases hturn : s.turn with
  | host i =>
    obtain ⟨w, buffer, rest, -, -, hhost, -⟩ := State.turn_host hturn
    rw [State.turnStep_of_host hturn]
    exact s.settle_answers_next hhost
  | badWord reason => exact ⟨_, State.turnStep_of_badWord hturn⟩
  | engine =>
    obtain ⟨t, ht, -⟩ := h.passIdle.engineStep
    exact ⟨t, by rw [State.turnStep_of_engine hturn, ht]⟩

/-- Settles O39, by whose turn it is. -/
theorem everyStepAnswersNext : Obligations.EveryStepAnswersNext := by
  intro s h
  by_cases hreset : s.resetLine.head? = some true
  · obtain ⟨rest, hline⟩ := List.head?_eq_some_iff.mp hreset
    exact ⟨_, step_of_reset hline⟩
  · rw [step_of_no_reset hreset]
    exact h.passReset.turnStep

/-! What HOST is given -/

/-- A digest is given by `RDDG` alone, and it is what `D` holds in DONE. -/
theorem exec_next_digest_reply {i : Instr} {s t : State} {d : Digest} (h : exec i s = .next t)
    (hreply : t.replies = s.replies ++ [.digest d]) : s.phase = .done ∧ s.digest = some d := by
  cases i with
  | rddg =>
    obtain ⟨d', hphase, hdigest, rfl⟩ := execRddg_next h
    simp only [State.reply_replies, List.append_cancel_left_eq, List.cons.injEq, Reply.digest.injEq] at hreply
    obtain ⟨rfl, -⟩ := hreply
    exact ⟨hphase, hdigest⟩
  | start len => obtain ⟨-, rfl⟩ | ⟨-, -, rfl⟩ := execStart_next h <;> simp at hreply
  | rdst => obtain rfl := execRdst_next h; simp at hreply
  | absb => obtain ⟨b, -, -, rfl⟩ := execAbsb_next h; simp at hreply
  | pads => obtain ⟨-, rfl⟩ := execPads_next h; simp at hreply
  | pade => obtain ⟨-, rfl⟩ := execPade_next h; simp at hreply
  | padb => obtain ⟨-, rfl⟩ := execPadb_next h; simp at hreply
  | skip => obtain ⟨-, rfl⟩ := execSkip_next h; simp at hreply
  | perm => obtain ⟨-, rfl⟩ := execPerm_next h; simp at hreply
  | sqz => obtain ⟨-, rfl⟩ := execSqz_next h; simp at hreply

theorem step_next_digest_reply {s t : State} {d : Digest} (h : step s = .next t)
    (hreply : t.replies = s.replies ++ [.digest d]) : s.phase = .done ∧ s.digest = some d := by
  obtain ⟨rest, -, rfl⟩ | ⟨i, -, hexec⟩ | ⟨i, -, -, hexec⟩ | ⟨r, rfl⟩ | ⟨-, -, rfl⟩ := step_next h
  case inl => simp at hreply
  case inr.inl => exact exec_next_digest_reply (s := s.passReset) hexec hreply
  case inr.inr.inl => simpa using exec_next_digest_reply hexec (by simpa using hreply)
  case inr.inr.inr.inl => simp at hreply
  case inr.inr.inr.inr => simp at hreply

/-- Settles O40: in DONE the invariant says what `D` holds. -/
theorem everyDigestReturnedIsTheRunsDigest : Obligations.EveryDigestReturnedIsTheRunsDigest := by
  intro s t d h hstep hreply
  obtain ⟨hphase, hdigest⟩ := step_next_digest_reply hstep hreply
  obtain ⟨m, hruns, hprogress⟩ := h.run
  refine ⟨m, hruns (by rw [hphase]; decide), ?_⟩
  rw [(State.progressOn_of_done hphase).mp hprogress] at hdigest
  exact (Option.some.inj hdigest).symm

end Sys2Proof.Machine
end

section
/-! Runs of the engine: from a well-formed state of a run to DONE, one step after the other, with HOST silent or held. -/

namespace Sys2Proof.Machine

/-- The engine has every step of the run to come: reset is silent, and so is HOST, or its `START` is held (R67). -/
def State.engineAlone (s : State) : Prop :=
  s.resetLine = [] ∧
    (s.host = [] ∨ ∃ w buffer rest len, s.host = .transact w buffer :: rest ∧ decodeWord w = .ok (.start len))

theorem State.engineAlone_of_quiet {s : State} (h : s.quiet) : s.engineAlone :=
  ⟨h.2, .inl h.1⟩

theorem step_eq_engineStep {s : State} (halone : s.engineAlone) (hbusy : s.busy) : step s = s.engineStep := by
  obtain ⟨hreset, hport | ⟨w, buffer, rest, len, hport, hw⟩⟩ := halone
  · rw [step_of_no_reset_line hreset, State.turnStep_of_engine (State.turn_of_silent hport),
      State.passIdle_of_silent hport]
  · rw [step_of_no_reset_line hreset, State.turnStep_of_engine (State.turn_of_held hport hw hbusy),
      State.passIdle_of_transact hport]

/-- The control part of a run on `m` that the engine has to itself; nothing is said of `S` and `D`. -/
structure State.RunsAlone (s : State) (m : List Byte) : Prop where
  control : s.controlWf
  runs : s.runsOn m
  alone : s.engineAlone

theorem State.RunsAlone.step {s : State} {m : List Byte} (h : s.RunsAlone m) (hbusy : s.busy) :
    step s = .next (s.engineNext m) := by
  rw [step_eq_engineStep h.alone hbusy, State.engineStep_eq h.control fun _ => h.runs]

theorem State.RunsAlone.engineNext {s : State} {m : List Byte} (h : s.RunsAlone m) : (s.engineNext m).RunsAlone m where
  control := State.controlWf_engineNext m h.control
  runs := State.runsOn_engineNext h.runs
  alone := by
    rw [State.engineAlone, State.engineNext_resetLine, State.engineNext_host]
    exact h.alone

/-! The state after `n` engine steps -/

/-- `n` steps of the engine in a run on `m`. -/
def State.engineRun (m : List Byte) (n : Nat) (s : State) : State :=
  (State.engineNext m)^[n] s

@[simp] theorem State.engineRun_zero (m : List Byte) (s : State) : s.engineRun m 0 = s := rfl

theorem State.engineRun_succ (m : List Byte) (n : Nat) (s : State) :
    s.engineRun m (n + 1) = (s.engineNext m).engineRun m n :=
  Function.iterate_succ_apply _ _ _

/-- What holds at `s`, and every engine step keeps, holds along the run. -/
theorem State.engineRun_induction {m : List Byte} {P : State → Prop} (hkeep : ∀ s, P s → P (s.engineNext m))
    {s : State} (h : P s) (n : Nat) : P (s.engineRun m n) :=
  Function.Iterate.rec P h hkeep n

theorem State.RunsAlone.engineRun {s : State} {m : List Byte} (h : s.RunsAlone m) (n : Nat) :
    (s.engineRun m n).RunsAlone m :=
  State.engineRun_induction (P := fun t => t.RunsAlone m) (fun _ ht => ht.engineNext) h n

@[simp] theorem State.engineRun_len (m : List Byte) (n : Nat) (s : State) : (s.engineRun m n).len = s.len :=
  State.engineRun_induction (P := fun t => t.len = s.len) (fun t ht => (t.engineNext_len m).trans ht) rfl n
@[simp] theorem State.engineRun_host (m : List Byte) (n : Nat) (s : State) : (s.engineRun m n).host = s.host :=
  State.engineRun_induction (P := fun t => t.host = s.host) (fun t ht => (t.engineNext_host m).trans ht) rfl n
@[simp] theorem State.engineRun_provider (m : List Byte) (n : Nat) (s : State) :
    (s.engineRun m n).provider = s.provider :=
  State.engineRun_induction (P := fun t => t.provider = s.provider) (fun t ht => (t.engineNext_provider m).trans ht) rfl n

/-- As long as steps remain, the machine takes the engine's, and each leaves one fewer (R128). -/
theorem State.RunsAlone.run {s : State} {m : List Byte} (h : s.RunsAlone m) {n : Nat} (hn : n ≤ s.remainingSteps) :
    core.run n s = .next (s.engineRun m n) ∧ (s.engineRun m n).remainingSteps + n = s.remainingSteps := by
  induction n generalizing s with
  | zero => exact ⟨rfl, rfl⟩
  | succ n ih =>
    have hbusy : s.busy := by
      by_contra hfree
      rw [State.remainingSteps_eq_zero_iff.mpr hfree] at hn
      omega
    have hfewer := State.remainingSteps_engineNext m hbusy h.control
    obtain ⟨hrun, hleft⟩ := ih h.engineNext (by omega)
    rw [run_succ n (h.step hbusy), State.engineRun_succ, hrun]
    exact ⟨rfl, by omega⟩

/-- All the steps that remain take a run to DONE. -/
theorem State.RunsAlone.run_to_done {s : State} {m : List Byte} (h : s.RunsAlone m) (hbusy : s.busy) :
    core.run s.remainingSteps s = .next (s.engineRun m s.remainingSteps) ∧
      (s.engineRun m s.remainingSteps).phase = .done := by
  obtain ⟨hrun, hleft⟩ := h.run le_rfl
  have hfree : ¬ (s.engineRun m s.remainingSteps).busy := State.remainingSteps_eq_zero_iff.mp (by omega)
  have hstarted : (s.engineRun m s.remainingSteps).phase ≠ .idle :=
    State.engineRun_induction (P := fun t => t.phase ≠ .idle) (fun _ ht => State.phase_engineNext_ne_idle m ht)
      (State.ne_idle_of_busy hbusy) _
  exact ⟨hrun, (State.not_busy_iff.mp hfree).resolve_left hstarted⟩

/-- Not before all the steps that remain is the phase DONE. -/
theorem State.RunsAlone.not_done_before {s : State} {m : List Byte} (h : s.RunsAlone m) {n : Nat}
    (hn : n < s.remainingSteps) : (s.engineRun m n).phase ≠ .done := by
  intro hdone
  have hleft := (h.run hn.le).2
  rw [State.remainingSteps_eq_zero_iff.mpr (State.not_busy_iff.mpr (.inr hdone))] at hleft
  omega

/-- `S` and `D` follow the closed form along the run. -/
theorem State.RunsAlone.progressOn_engineRun {s : State} {m : List Byte} (h : s.RunsAlone m) (hprogress : s.progressOn m)
    (n : Nat) : (s.engineRun m n).progressOn m :=
  (State.engineRun_induction (P := fun t => t.RunsAlone m ∧ t.progressOn m)
    (fun _ ht => ⟨ht.1.engineNext, State.progressOn_engineNext ht.1.control (fun _ => ht.1.runs.1) ht.2⟩)
    ⟨h, hprogress⟩ n).2

/-! The invariant of a busy machine gives the control part -/

theorem State.RunInv.exists_runsAlone {s : State} (h : s.RunInv) (hbusy : s.busy) (halone : s.engineAlone) :
    ∃ m, s.RunsAlone m := by
  obtain ⟨m, hruns, -⟩ := h.run
  exact ⟨m, h.control, hruns (State.ne_idle_of_busy hbusy), halone⟩

/-- Settles O41, from the engine's next state. -/
theorem eachEngineStepBringsTheEndNearer : Obligations.EachEngineStepBringsTheEndNearer := by
  intro s h hbusy hquiet
  obtain ⟨m, hm⟩ := h.exists_runsAlone hbusy (State.engineAlone_of_quiet hquiet)
  exact ⟨_, hm.step hbusy, State.remainingSteps_engineNext m hbusy h.control⟩

theorem exec_next_host_of_not_isHost {i : Instr} {s t : State} (hmicro : i.isHost = false) (h : exec i s = .next t) :
    t.host = s.host := by
  cases i with
  | start len => cases hmicro
  | rdst => cases hmicro
  | rddg => cases hmicro
  | absb => obtain ⟨b, -, -, rfl⟩ := execAbsb_next h; rfl
  | pads => obtain ⟨-, rfl⟩ := execPads_next h; rfl
  | pade => obtain ⟨-, rfl⟩ := execPade_next h; rfl
  | padb => obtain ⟨-, rfl⟩ := execPadb_next h; rfl
  | skip => obtain ⟨-, rfl⟩ := execSkip_next h; rfl
  | perm => obtain ⟨-, rfl⟩ := execPerm_next h; simp
  | sqz => obtain ⟨-, rfl⟩ := execSqz_next h; rfl

theorem State.engineStep_next_host {s t : State} (h : s.engineStep = .next t) : t.host = s.host := by
  cases hsel : s.sel with
  | none => rw [State.engineStep_of_no_sel hsel] at h; cases h; rfl
  | some i =>
    rw [State.engineStep_of_sel hsel] at h
    exact exec_next_host_of_not_isHost (sel_not_host hsel) h

/-- Settles O10: a held `START` leaves the engine alone, so the run ends, and in DONE it is HOST's turn with it. -/
theorem startIsHeldDuringARun : Obligations.StartIsHeldDuringARun := by
  refine ⟨fun s len hbusy => exec_start_of_busy len hbusy, fun s t w buffer rest len hbusy hreset hport hw hstep => ?stays,
    fun s w buffer rest len hinv hbusy hreset hport hw => ?lifted⟩
  case stays =>
    rw [step_eq_engineStep ⟨hreset, .inr ⟨w, buffer, rest, len, hport, hw⟩⟩ hbusy] at hstep
    exact State.engineStep_next_host hstep
  case lifted =>
    obtain ⟨m, hm⟩ := hinv.exists_runsAlone hbusy ⟨hreset, .inr ⟨w, buffer, rest, len, hport, hw⟩⟩
    obtain ⟨hrun, hdone⟩ := hm.run_to_done hbusy
    refine ⟨_, hrun, hdone, State.engineRun_host _ _ _, ?_⟩
    exact State.turn_of_host (by rw [State.engineRun_host, hport]) hw rfl
      (State.holds_start_of_not_busy len (State.not_busy_iff.mpr (.inr hdone)))

end Sys2Proof.Machine
end

section
/-! A whole computation (spec/44_composite.md R125, R128): the accepted `START`, then the engine's run. -/

namespace Sys2Proof.Machine

/-- The machine right after it has accepted `START` over `m`. -/
def State.begun (s : State) (m : List Byte) : State :=
  (s.beginRun m.length).leavePort.note (.started m.length)

section
variable {s : State} {m : List Byte} (hfree : ¬ s.busy) (hfits : lengthFits s.lenw m.length = true)
  (hreset : s.resetLine = []) (hport : s.host = [.transact (encodeWord (.start m.length)) m])

include hfree hfits hreset hport in
theorem step_start : step s = .next (s.begun m) := by
  have hturn : s.turn = .host (.start m.length) :=
    State.turn_of_host hport (decodeWord_encodeWord_start _) rfl (State.holds_start_of_not_busy _ hfree)
  rw [step_of_no_reset_line hreset, State.turnStep_of_host hturn, exec_start_of_fits hfree hfits, State.settle_of_next]
  rfl

include hreset hport in
theorem State.runsAlone_begun : (s.begun m).RunsAlone m where
  control := (State.controlWf_of_absorb rfl).mpr ⟨Nat.zero_le _, Nat.zero_le _⟩
  runs := by
    have hoffered : s.offered = m := by rw [State.offered, hport]
    have hinput : (s.begun m).input = Memory.ofBytes (s.offered.take m.length) := rfl
    rw [hoffered, List.take_length] at hinput
    exact ⟨rfl, hinput⟩
  alone := by
    have hempty : (s.begun m).host = s.host.tail := rfl
    rw [hport] at hempty
    exact ⟨hreset, .inl hempty⟩

theorem State.progressOn_begun : (s.begun m).progressOn m :=
  (State.progressOn_of_absorb rfl).mpr ⟨rfl, rfl⟩

theorem State.busy_begun : (s.begun m).busy :=
  .inl rfl

theorem State.remainingSteps_begun : (s.begun m).remainingSteps = 137 * windowCount m.length + 1 :=
  rfl

include hfree hfits hreset hport in
/-- After the accepting step the machine takes the engine's steps, as many as remain or fewer. -/
theorem run_from_start {n : Nat} (hn : n ≤ 137 * windowCount m.length + 1) :
    core.run (1 + n) s = .next ((s.begun m).engineRun m n) := by
  rw [Nat.add_comm, run_succ n (step_start hfree hfits hreset hport)]
  exact ((State.runsAlone_begun hreset hport).run (State.remainingSteps_begun.symm ▸ hn)).1

include hreset hport in
theorem State.done_after_run : ((s.begun m).engineRun m (137 * windowCount m.length + 1)).phase = .done :=
  ((State.runsAlone_begun hreset hport).run_to_done State.busy_begun).2

include hreset hport in
theorem State.digest_after_run :
    ((s.begun m).engineRun m (137 * windowCount m.length + 1)).digest = some (keccak256 s.provider.apply m) := by
  have hprogress := (State.runsAlone_begun hreset hport).progressOn_engineRun State.progressOn_begun
    (137 * windowCount m.length + 1)
  rw [State.progressOn_of_done (State.done_after_run hreset hport), State.engineRun_provider] at hprogress
  exact hprogress

end

/-- Settles O42: `START`, then as many engine steps as remain. -/
theorem runComputesTheDigest : Obligations.RunComputesTheDigest := by
  intro s m hphase hfits hreset hport
  have hfree := State.not_busy_iff.mpr hphase
  have halone := State.runsAlone_begun hreset hport
  refine ⟨⟨_, run_from_start hfree hfits hreset hport le_rfl, State.done_after_run hreset hport,
    State.digest_after_run hreset hport, State.engineRun_len _ _ _, ?registers⟩, fun n t hn hrun => ?notBefore⟩
  case registers =>
    obtain ⟨hwindow, hpos⟩ := (State.controlWf_of_done (State.done_after_run hreset hport)).mp (halone.engineRun _).control
    rw [State.engineRun_len] at hwindow
    exact ⟨hwindow, BitVec.eq_of_toNat_eq hpos⟩
  case notBefore =>
    rw [run_from_start hfree hfits hreset hport hn.le] at hrun
    cases hrun
    exact halone.not_done_before hn

/-- Settles O45: each machine ends with the digest function's value, and it is the same function. -/
theorem digestDependsOnTheInputAlone : Obligations.DigestDependsOnTheInputAlone := by
  intro s u m hs hu hprovider hsfits hufits hsreset hureset hsport huport
  have hcount : 137 * windowCount m.length + 2 = 1 + (137 * windowCount m.length + 1) := by omega
  rw [hcount]
  refine ⟨_, _, keccak256 s.provider.apply m, run_from_start hs hsfits hsreset hsport le_rfl,
    run_from_start hu hufits hureset huport le_rfl, State.digest_after_run hsreset hsport, ?_⟩
  rw [hprovider]
  exact State.digest_after_run hureset huport

end Sys2Proof.Machine
end

section
/-! What a run still has to yield, in order: the operations of its trace, or its external events. Each engine step takes the
first part off. -/

namespace Sys2Proof.Machine

/-- What each operation of a run contributes to a list of the whole run: its trace (`opsYield`) or its events (`eventsYield`). -/
structure Yield (α : Type) where
  /-- What the operation at position `i` of window `w` yields, in a run of the given length. -/
  atPos : (len w i : Nat) → List α
  atPerm : List α
  atSqz : List α

/-- What window `w` yields. -/
def Yield.window {α : Type} (y : Yield α) (len w : Nat) : List α :=
  (List.range 136).flatMap (y.atPos len w) ++ y.atPerm

/-- What the engine's next operation yields. -/
def Yield.next {α : Type} (y : Yield α) (s : State) : List α :=
  match s.phase with
  | .idle => []
  | .absorb => if s.pos.toNat = 136 then y.atPerm else y.atPos s.len s.window s.pos.toNat
  | .squeeze => y.atSqz
  | .done => []

/-- What the run yields from here on: the rest of the window, the windows to come, the digest. -/
def Yield.rest {α : Type} (y : Yield α) (s : State) : List α :=
  match s.phase with
  | .idle => []
  | .absorb =>
    (List.range' s.pos.toNat (136 - s.pos.toNat)).flatMap (y.atPos s.len s.window) ++ y.atPerm ++
      (List.range' (s.window + 1) (s.len / 136 - s.window)).flatMap (y.window s.len) ++ y.atSqz
  | .squeeze => y.atSqz
  | .done => []

section
variable {α : Type} (y : Yield α) {s : State} (m : List Byte)

theorem Yield.next_of_position (hphase : s.phase = .absorb) (hpos : s.pos.toNat ≤ 135) :
    y.next s = y.atPos s.len s.window s.pos.toNat := by
  simp only [Yield.next, hphase]
  exact if_neg (by omega)

theorem Yield.next_of_perm (h : s.selectsPerm) : y.next s = y.atPerm := by
  simp only [Yield.next, h.1]
  exact if_pos h.2

theorem Yield.next_of_squeeze (h : s.phase = .squeeze) : y.next s = y.atSqz := by
  simp only [Yield.next, h]

theorem Yield.rest_of_absorb (h : s.phase = .absorb) :
    y.rest s = (List.range' s.pos.toNat (136 - s.pos.toNat)).flatMap (y.atPos s.len s.window) ++ y.atPerm ++
      (List.range' (s.window + 1) (s.len / 136 - s.window)).flatMap (y.window s.len) ++ y.atSqz := by
  simp only [Yield.rest, h]

theorem Yield.rest_of_perm (h : s.selectsPerm) :
    y.rest s = y.atPerm ++ (List.range' (s.window + 1) (s.len / 136 - s.window)).flatMap (y.window s.len) ++ y.atSqz := by
  rw [y.rest_of_absorb h.1, h.2]
  rfl

theorem Yield.rest_of_squeeze (h : s.phase = .squeeze) : y.rest s = y.atSqz := by
  simp only [Yield.rest, h]

theorem Yield.rest_of_not_busy (h : ¬ s.busy) : y.rest s = [] := by
  obtain hp | hp := State.not_busy_iff.mp h <;> simp only [Yield.rest, hp]

/-- At the start of a run everything is still to come: each window, then the digest. -/
theorem Yield.rest_of_start (hphase : s.phase = .absorb) (hwindow : s.window = 0) (hpos : s.pos = 0) :
    y.rest s = (List.range (windowCount s.len)).flatMap (y.window s.len) ++ y.atSqz := by
  rw [y.rest_of_absorb hphase, hwindow, hpos, windowCount, List.range_eq_range', List.range'_succ, List.flatMap_cons,
    Yield.window, List.range_eq_range']
  rfl

/-- The engine's step takes off what its operation yields. -/
theorem Yield.rest_eq_next_append (hbusy : s.busy) (hwf : s.controlWf) :
    y.rest s = y.next s ++ y.rest (s.engineNext m) := by
  obtain ⟨hphase, hpos, -⟩ | ⟨hperm, hmore⟩ | ⟨hperm, hfinal⟩ | ⟨hphase, -, -⟩ := State.run_cases hbusy hwf
  · have hleft : 136 - s.pos.toNat = (136 - (s.pos.toNat + 1)) + 1 := by omega
    rw [State.engineNext_of_position m hphase hpos, y.next_of_position hphase hpos, y.rest_of_absorb hphase,
      y.rest_of_absorb (s := s.passPosition m) hphase, State.passPosition_pos m hpos, hleft, List.range'_succ,
      List.flatMap_cons]
    simp only [State.passPosition_len, State.passPosition_window, List.append_assoc]
  · have hleft : s.len / 136 - s.window = (s.len / 136 - (s.window + 1)) + 1 := by omega
    rw [State.engineNext_of_nextWindow m hperm hmore, y.next_of_perm hperm, y.rest_of_perm hperm,
      y.rest_of_absorb (by exact hperm.1), hleft, List.range'_succ, List.flatMap_cons]
    simp [Yield.window, List.range_eq_range']
  · rw [State.engineNext_of_finalWindow m hperm hfinal, y.next_of_perm hperm, y.rest_of_perm hperm,
      y.rest_of_squeeze rfl, hfinal]
    simp
  · rw [State.engineNext_of_squeeze m hphase, y.next_of_squeeze hphase, y.rest_of_squeeze hphase,
      y.rest_of_not_busy (State.not_busy_iff.mpr (.inr rfl)), List.append_nil]

end

/-! The trace -/

/-- The operations of a run. -/
def opsYield : Yield Instr where
  atPos len w i := (sel .absorb w i len).toList
  atPerm := [.perm]
  atSqz := [.sqz]

/-- The engine's next operation is the one `Sel` gives. -/
theorem opsYield_next {s : State} {i : Instr} (h : s.sel = some i) : opsYield.next s = [i] := by
  cases hp : s.phase with
  | idle => rw [State.sel_of_idle hp] at h; cases h
  | done => rw [State.sel_of_done hp] at h; cases h
  | squeeze =>
    rw [State.sel_of_squeeze hp] at h
    cases h
    exact opsYield.next_of_squeeze hp
  | absorb =>
    by_cases hend : s.pos.toNat = 136
    · rw [State.sel_of_selects (i := .perm) ⟨hp, hend⟩] at h
      cases h
      exact opsYield.next_of_perm ⟨hp, hend⟩
    · have hnext : opsYield.next s = (sel s.phase s.window s.pos.toNat s.len).toList := by
        simp only [Yield.next, hp]
        exact if_neg hend
      rw [hnext, ← State.sel, h, Option.toList_some]

theorem opsYield_window (len w : Nat) : opsYield.window len w = windowOps len w := by
  rw [Yield.window, windowOps, List.filterMap_eq_flatMap_toList]
  rfl

theorem opsYield_rest_of_start {s : State} (hphase : s.phase = .absorb) (hwindow : s.window = 0) (hpos : s.pos = 0) :
    opsYield.rest s = engineOps s.len := by
  rw [opsYield.rest_of_start hphase hwindow hpos, engineOps, absorbOps, funext (opsYield_window s.len)]
  rfl

/-- The engine's trace is what the run still has to yield, as far as it goes. -/
theorem engineTrace_eq_take {s : State} {m : List Byte} (h : s.RunsAlone m) (n : Nat) :
    engineTrace n s = (opsYield.rest s).take n := by
  induction n generalizing s with
  | zero => rfl
  | succ n ih =>
    by_cases hbusy : s.busy
    case neg =>
      rw [opsYield.rest_of_not_busy hbusy, engineTrace, State.sel_eq_none_of_not_busy hbusy, List.take_nil]
    case pos =>
      obtain ⟨i, hi⟩ := State.exists_selects hbusy h.control
      have hsel := State.sel_of_selects hi
      rw [opsYield.rest_eq_next_append m hbusy h.control, opsYield_next hsel, List.singleton_append,
        List.take_succ_cons, ← ih h.engineNext]
      simp only [engineTrace, hsel, h.step hbusy]

/-! The events -/

/-- The external events of a run. -/
def eventsYield : Yield Event where
  atPos len w i := positionEvents len (136 * w + i)
  atPerm := [.permCall]
  atSqz := [.digestReady]

theorem flatMap_positionEvents (len w : Nat) (is : List Nat) :
    is.flatMap (fun i => positionEvents len (136 * w + i)) =
      (is.filter (fun i => 136 * w + i < len)).map (fun i => Event.inRead (136 * w + i)) := by
  induction is with
  | nil => rfl
  | cons i is ih =>
    rw [List.flatMap_cons, ih, positionEvents]
    by_cases h : 136 * w + i < len <;> simp [h]

theorem eventsYield_window (len w : Nat) : eventsYield.window len w = windowEvents len w := by
  rw [windowEvents, ← flatMap_positionEvents]
  rfl

/-- A step records what its operation yields (R45). -/
theorem State.engineNext_events {s : State} (m : List Byte) (hbusy : s.busy) (hwf : s.controlWf) :
    (s.engineNext m).events = s.events ++ eventsYield.next s := by
  obtain ⟨hphase, hpos, -⟩ | ⟨hperm, -⟩ | ⟨hperm, -⟩ | ⟨hphase, -⟩ := State.run_cases hbusy hwf
  · rw [State.engineNext_of_position m hphase hpos, eventsYield.next_of_position hphase hpos, State.passPosition_events]
    rfl
  · rw [State.engineNext_of_perm m hperm, eventsYield.next_of_perm hperm]
    simp [eventsYield]
  · rw [State.engineNext_of_perm m hperm, eventsYield.next_of_perm hperm]
    simp [eventsYield]
  · rw [State.engineNext_of_squeeze m hphase, eventsYield.next_of_squeeze hphase]
    rfl

/-- The events so far and those to come are together the same all along the run. -/
theorem State.RunsAlone.engineRun_events {s : State} {m : List Byte} (h : s.RunsAlone m) (n : Nat) :
    (s.engineRun m n).events ++ eventsYield.rest (s.engineRun m n) = s.events ++ eventsYield.rest s := by
  refine (State.engineRun_induction (m := m)
    (P := fun t => t.RunsAlone m ∧ t.events ++ eventsYield.rest t = s.events ++ eventsYield.rest s)
    (fun t ht => ⟨ht.1.engineNext, ?_⟩) ⟨h, rfl⟩ n).2
  by_cases hbusy : t.busy
  · rw [State.engineNext_events m hbusy ht.1.control, List.append_assoc,
      ← eventsYield.rest_eq_next_append m hbusy ht.1.control, ht.2]
  · rw [State.engineNext_of_not_busy m hbusy, ht.2]

end Sys2Proof.Machine
end

section
/-! The operations and the external events of a run, written out and counted (spec/44_composite.md R128; spec/20_memory.md
R45). -/

namespace Sys2Proof.Machine

/-! `Sel` at the positions of a window -/

theorem sel_absb {w i len : Nat} (hi : i ≤ 135) (h : 136 * w + i < len) : sel .absorb w i len = some .absb := by
  simp only [sel]
  grind

theorem sel_pads {w i len : Nat} (hi : i ≤ 134) (h : 136 * w + i = len) : sel .absorb w i len = some .pads := by
  simp only [sel]
  grind

theorem sel_padb {w len : Nat} (h : 136 * w + 135 = len) : sel .absorb w 135 len = some .padb := by
  simp only [sel]
  grind

theorem sel_pade {w len : Nat} (h : len < 136 * w + 135) : sel .absorb w 135 len = some .pade := by
  simp only [sel]
  grind

theorem sel_skip {w i len : Nat} (hi : i ≤ 134) (h : len < 136 * w + i) : sel .absorb w i len = some .skip := by
  simp only [sel]
  grind

theorem filterMap_eq_replicate {α β : Type} {f : α → Option β} {l : List α} {x : β} (h : ∀ a ∈ l, f a = some x) :
    l.filterMap f = List.replicate l.length x := by
  have hconst : ∀ a ∈ l, f a = (some ∘ fun _ => x) a := h
  rw [List.filterMap_congr hconst, List.filterMap_eq_map, List.map_const']

/-! The three shapes of a window (R82, R86) -/

theorem windowOps_of_full {len w : Nat} (h : w < len / 136) :
    windowOps len w = List.replicate 136 Instr.absb ++ [Instr.perm] := by
  have hall : ∀ i ∈ List.range 136, sel .absorb w i len = some .absb := fun i hi => by
    have := List.mem_range.mp hi
    exact sel_absb (by omega) (by omega)
  rw [windowOps, filterMap_eq_replicate hall, List.length_range]

/-- A range with its element `r` and its last element set apart. -/
theorem range_split (r k : Nat) :
    List.range (r + (k + 1 + 1)) = List.range r ++ r :: (List.range' (r + 1) k ++ [r + 1 + k]) := by
  rw [List.range_eq_range', ← List.range'_append_1, Nat.zero_add, List.range'_succ, List.range'_1_concat,
    List.range_eq_range']

/-- The input operations of the final window: the first `len % 136` positions. -/
theorem filterMap_sel_input {len r : Nat} (hr : len % 136 = r) :
    (List.range r).filterMap (fun i => sel .absorb (len / 136) i len) = List.replicate r .absb := by
  have hall : ∀ i ∈ List.range r, sel .absorb (len / 136) i len = some .absb := fun i hi => by
    have := List.mem_range.mp hi
    exact sel_absb (by omega) (by omega)
  rw [filterMap_eq_replicate hall, List.length_range]

theorem windowOps_final_of_padb {len : Nat} (hr : len % 136 = 135) :
    windowOps len (len / 136) = List.replicate 135 Instr.absb ++ [Instr.padb, Instr.perm] := by
  have hlast : sel .absorb (len / 136) 135 len = some .padb := sel_padb (by omega)
  rw [windowOps, List.range_succ, List.filterMap_append, filterMap_sel_input hr, List.filterMap_cons, hlast]
  simp

theorem windowOps_final_of_pads {len r : Nat} (hr : len % 136 = r) (hearly : r ≤ 134) :
    windowOps len (len / 136) =
      List.replicate r Instr.absb ++ Instr.pads :: (List.replicate (134 - r) Instr.skip ++ [Instr.pade, Instr.perm]) := by
  have hcount : r + (134 - r + 1 + 1) = 136 := by omega
  have hend : r + 1 + (134 - r) = 135 := by omega
  have hpositions := range_split r (134 - r)
  rw [hcount, hend] at hpositions
  have hstart : sel .absorb (len / 136) r len = some .pads := sel_pads hearly (by omega)
  have hlast : sel .absorb (len / 136) 135 len = some .pade := sel_pade (by omega)
  have hbetween : ∀ i ∈ List.range' (r + 1) (134 - r), sel .absorb (len / 136) i len = some .skip := fun i hi => by
    have := List.mem_range'_1.mp hi
    exact sel_skip (by omega) (by omega)
  rw [windowOps, hpositions, List.filterMap_append, filterMap_sel_input hr, List.filterMap_cons, hstart,
    List.filterMap_append, filterMap_eq_replicate hbetween, List.length_range', List.filterMap_cons, hlast]
  simp

/-! The counts of R128 -/

/-- Every window but the final one is the same, so an operation's count is a multiple of one window's
count, and the final one's. -/
theorem count_engineOps (op : Instr) (len : Nat) :
    (engineOps len).count op =
      len / 136 * (List.replicate 136 Instr.absb ++ [Instr.perm]).count op + (windowOps len (len / 136)).count op +
        [Instr.sqz].count op := by
  have hfull : ∀ w ∈ List.range (len / 136),
      (List.count op ∘ windowOps len) w = (List.replicate 136 Instr.absb ++ [Instr.perm]).count op := fun w hw => by
    rw [Function.comp_apply, windowOps_of_full (List.mem_range.mp hw)]
  rw [engineOps, absorbOps, windowCount, List.range_succ, List.flatMap_append, List.count_append, List.count_append,
    List.count_flatMap, List.map_congr_left hfull, List.map_const', List.sum_replicate, List.length_range,
    smul_eq_mul, List.flatMap_singleton]

theorem length_windowOps {len w : Nat} (h : w < windowCount len) : (windowOps len w).length = 137 := by
  rw [windowCount] at h
  obtain hfull | hfinal : w < len / 136 ∨ w = len / 136 := by omega
  · simp [windowOps_of_full hfull]
  · subst hfinal
    obtain hpads | hpadb : len % 136 ≤ 134 ∨ len % 136 = 135 := by omega
    · simp [windowOps_final_of_pads rfl hpads]
      omega
    · simp [windowOps_final_of_padb hpadb]

theorem length_engineOps (len : Nat) : (engineOps len).length = 137 * (len / 136 + 1) + 1 := by
  have hwindow : ∀ w ∈ List.range (windowCount len), (windowOps len w).length = 137 := fun w hw =>
    length_windowOps (List.mem_range.mp hw)
  rw [engineOps, absorbOps, List.length_append, List.length_flatMap, List.map_congr_left hwindow, List.map_const',
    List.sum_replicate, List.length_range, smul_eq_mul, windowCount, Nat.mul_comm]
  rfl

/-- Settles O44: the trace is what the run still has to yield at its start, and its windows are of three shapes. -/
theorem runPerformsTheCountedOperations : Obligations.RunPerformsTheCountedOperations := by
  refine ⟨fun s m hquiet hphase hwindow hpos hruns => ?trace, fun len r hr => ?counts⟩
  case trace =>
    have hwf : s.controlWf := (State.controlWf_of_absorb hphase).mpr (by simp [hwindow, hpos])
    have halone : s.RunsAlone m := ⟨hwf, hruns, State.engineAlone_of_quiet hquiet⟩
    have hlength : (engineOps m.length).length = 137 * windowCount m.length + 1 := length_engineOps m.length
    rw [engineTrace_eq_take halone, opsYield_rest_of_start hphase hwindow hpos, ← hruns.1, ← hlength, List.take_length]
  case counts =>
    simp only [count_engineOps, length_engineOps, and_true]
    obtain hpads | hpadb : r ≤ 134 ∨ r = 135 := by omega
    · have hnot : r ≠ 135 := by omega
      simp only [windowOps_final_of_pads hr.symm hpads, List.count_append, List.count_cons, List.count_replicate,
        List.count_nil, beq_iff_eq, reduceCtorEq, if_true, if_false, if_pos hpads, if_neg hnot]
      omega
    · have hnot : ¬ r ≤ 134 := by omega
      simp only [windowOps_final_of_padb (hr.symm.trans hpadb), List.count_append, List.count_cons, List.count_replicate,
        List.count_nil, beq_iff_eq, reduceCtorEq, if_true, if_false, if_pos hpadb, if_neg hnot]
      omega

/-! The events of R45 -/

/-- The offsets of the first `n` windows, in order, are all offsets below `136 * n`. -/
theorem flatMap_window_offsets (n : Nat) :
    (List.range n).flatMap (fun w => (List.range 136).map (fun i => 136 * w + i)) = List.range (136 * n) := by
  induction n with
  | zero => rfl
  | succ n ih =>
    rw [List.range_succ (n := n), List.flatMap_append, ih, List.flatMap_singleton, Nat.mul_succ, List.range_add]

theorem filter_lt_range {len n : Nat} (h : len ≤ n) : (List.range n).filter (fun off => off < len) = List.range len := by
  obtain ⟨k, rfl⟩ := Nat.exists_eq_add_of_le h
  have hlow : (List.range len).filter (fun off => off < len) = List.range len :=
    List.filter_eq_self.mpr fun off hoff => decide_eq_true (List.mem_range.mp hoff)
  have hhigh : ((List.range k).map (fun x => len + x)).filter (fun off => off < len) = [] :=
    List.filter_eq_nil_iff.mpr (by simp)
  rw [List.range_add, List.filter_append, hlow, hhigh, List.append_nil]

/-- The event is an `IN` read. -/
def Event.isRead : Event → Bool
  | .inRead _ => true
  | _ => false

theorem filter_isRead_windowEvents (len w : Nat) :
    (windowEvents len w).filter Event.isRead =
      (((List.range 136).map (fun i => 136 * w + i)).filter (fun off => off < len)).map Event.inRead := by
  have hreads : Event.isRead ∘ (fun i => Event.inRead (136 * w + i)) = fun _ => true := rfl
  have hcall : [Event.permCall].filter Event.isRead = [] := rfl
  rw [windowEvents, List.filter_append, List.filter_map, hreads, List.filter_true, hcall, List.append_nil,
    List.filter_map, List.map_map]
  rfl

/-- The `IN` reads of a run: every offset of the input once, in order (R31). -/
theorem filter_isRead_runEvents (len : Nat) : (runEvents len).filter Event.isRead = (List.range len).map Event.inRead := by
  have hlong : len ≤ 136 * windowCount len := by
    rw [windowCount]
    omega
  have hwindows : ((List.range (windowCount len)).flatMap (windowEvents len)).filter Event.isRead =
      (List.range len).map Event.inRead := by
    simp only [List.filter_flatMap, filter_isRead_windowEvents]
    rw [← List.map_flatMap, ← List.filter_flatMap, flatMap_window_offsets, filter_lt_range hlong]
  have hends (es : List Event) :
      (Event.started len :: es ++ [Event.digestReady]).filter Event.isRead = es.filter Event.isRead := by
    simp [Event.isRead]
  rw [runEvents, hends, hwindows]

theorem count_permCall_windowEvents (len w : Nat) : (windowEvents len w).count .permCall = 1 := by
  have hreads : ∀ is : List Nat, (is.map fun i => Event.inRead (136 * w + i)).count .permCall = 0 := fun is =>
    List.count_eq_zero.mpr (by simp)
  rw [windowEvents, List.count_append, hreads]
  rfl

/-- One permutation call for each window. -/
theorem count_permCall_runEvents (len : Nat) : (runEvents len).count .permCall = len / 136 + 1 := by
  have hwindow : List.count .permCall ∘ windowEvents len = fun _ => 1 := funext (count_permCall_windowEvents len)
  have hends (es : List Event) :
      (Event.started len :: es ++ [Event.digestReady]).count Event.permCall = es.count .permCall := by
    simp
  rw [runEvents, hends, List.count_flatMap, hwindow, List.map_const', List.sum_replicate, List.length_range, smul_eq_mul,
    Nat.mul_one, windowCount]

theorem eventsYield_rest_begun (s : State) (m : List Byte) :
    .started m.length :: eventsYield.rest (s.begun m) = runEvents m.length := by
  rw [eventsYield.rest_of_start (s := s.begun m) rfl rfl rfl, funext (eventsYield_window _)]
  rfl

/-- Settles O43: at DONE nothing is left to come, so the events are those the accepted `START` had to come. -/
theorem runEventsComeInOrder : Obligations.RunEventsComeInOrder := by
  refine ⟨fun s m hphase hfits hreset hport => ?run, fun len =>
    ⟨filter_isRead_runEvents len, count_permCall_runEvents len⟩⟩
  case run =>
    refine ⟨_, run_from_start (State.not_busy_iff.mpr hphase) hfits hreset hport le_rfl, ?_⟩
    have hevents := (State.runsAlone_begun hreset hport).engineRun_events (137 * windowCount m.length + 1)
    have hdone : ¬ ((s.begun m).engineRun m (137 * windowCount m.length + 1)).busy :=
      State.not_busy_iff.mpr (.inr (State.done_after_run hreset hport))
    have hbegun : (s.begun m).events = s.events ++ [.started m.length] := rfl
    rw [eventsYield.rest_of_not_busy hdone, List.append_nil] at hevents
    rw [hevents, hbegun, List.append_assoc, List.singleton_append, eventsYield_rest_begun]

end Sys2Proof.Machine
end

section
/-! The padded message (spec/44_composite.md R126, R131) and the bytes the positions receive (R89). -/

namespace Sys2Proof.Machine

/-! Its two shapes -/

theorem paddedMessage_of_last {m : List Byte} (h : m.length % 136 = 135) : paddedMessage m = m ++ [0x81] := by
  rw [paddedMessage, h]
  rfl

theorem paddedMessage_of_early {m : List Byte} {r : Nat} (hr : m.length % 136 = r) (h : r ≤ 134) :
    paddedMessage m = m ++ 0x01 :: (List.replicate (134 - r) 0x00 ++ [0x80]) := by
  have hmany : ¬ 136 - r = 1 := by omega
  have hzeros : 136 - r - 2 = 134 - r := by omega
  rw [paddedMessage, hr]
  simp [hmany, hzeros]

/-! The positions of the run receive it -/

theorem map_paddedByte_input (m : List Byte) : (List.range m.length).map (paddedByte m) = m := by
  refine List.ext_getElem (by simp) fun off _ hoff => ?_
  rw [List.getElem_map, List.getElem_range, paddedByte_of_lt hoff]

theorem paddedMessage_eq_map (m : List Byte) :
    paddedMessage m = (List.range (136 * windowCount m.length)).map (paddedByte m) := by
  rw [windowCount]
  obtain hlast | hearly : m.length % 136 = 135 ∨ m.length % 136 ≤ 134 := by omega
  · have hcount : 136 * (m.length / 136 + 1) = m.length + 1 := by omega
    rw [paddedMessage_of_last hlast, hcount, List.range_succ, List.map_append, map_paddedByte_input, List.map_singleton,
      paddedByte_length, if_pos hlast]
  · have hcount : 136 * (m.length / 136 + 1) = m.length + (134 - m.length % 136 + 1 + 1) := by omega
    have hend : paddedByte m (m.length + 1 + (134 - m.length % 136)) = 0x80 := by
      rw [paddedByte_of_gt (by omega), if_pos (by omega)]
    have hzeros : ∀ off ∈ List.range' (m.length + 1) (134 - m.length % 136), paddedByte m off = 0x00 := fun off hoff => by
      have := List.mem_range'_1.mp hoff
      rw [paddedByte_of_gt (by omega), if_neg (by omega)]
    rw [paddedMessage_of_early rfl hearly, hcount, range_split, List.map_append, map_paddedByte_input, List.map_cons,
      paddedByte_length, if_neg (by omega), List.map_append, List.map_congr_left hzeros, List.map_const',
      List.length_range', List.map_singleton, hend]

theorem length_paddedMessage (m : List Byte) : (paddedMessage m).length = 136 * windowCount m.length := by
  rw [paddedMessage_eq_map, List.length_map, List.length_range]

theorem input_isPrefix_paddedMessage (m : List Byte) : m <+: paddedMessage m := by
  obtain hlast | hearly : m.length % 136 = 135 ∨ m.length % 136 ≤ 134 := by omega
  · rw [paddedMessage_of_last hlast]
    exact ⟨_, rfl⟩
  · rw [paddedMessage_of_early rfl hearly]
    exact ⟨_, rfl⟩

/-- Settles O46, from the two shapes of the padded message. -/
theorem positionsReceiveThePaddedMessage : Obligations.PositionsReceiveThePaddedMessage := by
  intro m
  have hlength := length_paddedMessage m
  refine ⟨paddedMessage_eq_map m, hlength, ?_, ?_, input_isPrefix_paddedMessage m⟩
  all_goals
    rw [hlength, windowCount]
    omega

/-! The padding is undone -/

/-- Both markers on one byte: bit 7 cleared, the start marker is left. -/
theorem unpad_both_markers (m : List Byte) : unpad (m ++ [0x81]) = m := by
  simp [unpad]

/-- Bit 7 cleared, the last byte is zero like those before it, down to the start marker. -/
theorem unpad_two_markers (m : List Byte) (k : Nat) :
    unpad (m ++ 0x01 :: (List.replicate k 0x00 ++ [0x80])) = m := by
  simp [unpad]

theorem unpad_paddedMessage (m : List Byte) : unpad (paddedMessage m) = m := by
  obtain hlast | hearly : m.length % 136 = 135 ∨ m.length % 136 ≤ 134 := by omega
  · rw [paddedMessage_of_last hlast, unpad_both_markers]
  · rw [paddedMessage_of_early rfl hearly, unpad_two_markers]

/-- Settles O47: `unpad` is a left inverse. -/
theorem paddingIsInjective : Obligations.PaddingIsInjective :=
  ⟨unpad_paddedMessage, Function.LeftInverse.injective unpad_paddedMessage⟩

end Sys2Proof.Machine
end

section
/-! A window as a whole (spec/41_pad_absorb.md section 5; spec/44_composite.md R127, R131): its order does not matter, an
all-padding window changes two bits, and 136 byte XORs are 17 lane XORs. -/

namespace Sys2Proof.Machine

/-! Order -/

theorem foldl_range_eq_absorbPositions (m : List Byte) (w n : Nat) (S : Lanes) :
    (List.range n).foldl (fun T i => xorb T i (paddedByte m (136 * w + i))) S = absorbPositions m w n S := by
  induction n with
  | zero => rfl
  | succ n ih => rw [List.range_succ, List.foldl_append, ih]; rfl

/-- Settles O50: any two XORs commute, and in ascending order they are the window's. -/
theorem orderInsideAWindowIsNotObservable : Obligations.OrderInsideAWindowIsNotObservable := by
  intro m w S order horder
  rw [horder.foldl_eq' (fun _ _ _ _ T => xorb_comm T _ _ _ _) S, foldl_range_eq_absorbPositions]

/-! All padding -/

/-- Until its last position an all-padding window has XORed the start marker alone. -/
theorem absorbPositions_all_padding {m : List Byte} {w : Nat} (h : m.length = 136 * w) (S : Lanes) {n : Nat}
    (hn : n ≤ 134) : absorbPositions m w (n + 1) S = xorb S 0 0x01 := by
  induction n with
  | zero =>
    have hstart : paddedByte m (136 * w) = 0x01 := by
      rw [← h, paddedByte_length, if_neg (by omega)]
    rw [absorbPositions, absorbPositions, Nat.add_zero, hstart]
  | succ n ih =>
    have hzero : paddedByte m (136 * w + (n + 1)) = 0 := by
      rw [paddedByte_of_gt (by omega), if_neg (by omega)]
    rw [absorbPositions, ih (by omega), hzero, xorb_zero]

/-- The whole all-padding window: the start marker on byte 0, the end marker on byte 135. -/
theorem absorbPositions_all_padding_window {m : List Byte} {w : Nat} (h : m.length = 136 * w) (S : Lanes) :
    absorbPositions m w 136 S = xorb (xorb S 0 0x01) 135 0x80 := by
  have hend : paddedByte m (136 * w + 135) = 0x80 := by
    rw [paddedByte_of_gt (by omega), if_pos (by omega)]
  rw [absorbPositions, absorbPositions_all_padding h S le_rfl, hend]

theorem lane_two_markers (S : Lanes) {k : Nat} (hk : k < 25) :
    lane (xorb (xorb S 0 0x01) 135 0x80) k =
      lane S k ^^^ (if k = 0 then 0x0000000000000001 else if k = 16 then 0x8000000000000000 else 0) := by
  have hstart : byteInLane 0 0x01 = 0x0000000000000001 := by decide
  have hend : byteInLane 135 0x80 = 0x8000000000000000 := by decide
  rw [lane_xorb_last _ _ hk, lane_xorb _ _ _ hk, hstart, hend]
  obtain rfl | hne := eq_or_ne k 0
  · simp
  · by_cases hlast : k = 16 <;> simp [hne, hlast]

/-- Settles O48, from the final window with no input byte in it. -/
theorem allPaddingWindowChangesTwoBits : Obligations.AllPaddingWindowChangesTwoBits := by
  intro m S h
  have hfinal : windowCount m.length - 1 = m.length / 136 := Nat.add_sub_cancel _ _
  have hlength : m.length = 136 * (m.length / 136) := by omega
  rw [hfinal]
  refine ⟨hlength.symm, ?ops, fun k hk => ?lanes⟩
  case ops => rw [windowOps_final_of_pads h (Nat.zero_le _)]; rfl
  case lanes => rw [absorbPositions_all_padding_window hlength, lane_two_markers S hk]

/-! The block form, in the byte view -/

/-- Two state buffers with the same 200 bytes are the same (R12). -/
theorem lanes_ext_bytes {S T : Lanes} (h : ∀ j < 200, stateByte S j = stateByte T j) : S = T := by
  refine lanes_ext fun k hk => BitVec.eq_of_getLsbD_eq fun bit hbit => ?_
  have hlane : (8 * k + bit / 8) / 8 = k := by omega
  have hplace : 8 * ((8 * k + bit / 8) % 8) + bit % 8 = bit := by omega
  have hbyte := congrArg (fun b : Byte => b.getLsbD (bit % 8)) (h (8 * k + bit / 8) (by omega))
  simpa only [getLsbD_stateByte _ _ _ (Nat.mod_lt bit (by decide)), hlane, hplace] using hbyte

theorem stateByte_absorbPositions (m : List Byte) (w n : Nat) (S : Lanes) {j : Nat} (hj : j < 200) :
    stateByte (absorbPositions m w n S) j =
      stateByte S j ^^^ (if j < n then paddedByte m (136 * w + j) else 0) := by
  induction n with
  | zero => simp [absorbPositions]
  | succ n ih =>
    rw [absorbPositions, stateByte_xorb _ _ hj, ih]
    obtain hlt | rfl | hgt := Nat.lt_trichotomy j n
    · simp [hlt, hlt.ne, Nat.lt_succ_of_lt hlt]
    · simp
    · have hnot : ¬ j < n ∧ ¬ j < n + 1 ∧ j ≠ n := by omega
      simp [hnot]

/-- Byte `j` of a little-endian lane (R34). -/
theorem getLsbD_leLane (bs : List Byte) {j bit : Nat} (hj : j < 8) (hbit : bit < 8) :
    (leLane bs).getLsbD (8 * j + bit) = (bs[j]?.getD 0).getLsbD bit := by
  have hin : 8 * j + bit < 64 := by omega
  rw [leLane, BitVec.getLsbD_ofNat, testBit_leNat bs j hbit, decide_eq_true hin, Bool.true_and]

theorem stateByte_absorbBlock {block : List Byte} (hlength : block.length = 136) (S : Lanes) {j : Nat} (hj : j < 200) :
    stateByte (absorbBlock block S) j = stateByte S j ^^^ block[j]?.getD 0 := by
  refine BitVec.eq_of_getLsbD_eq fun bit hbit => ?_
  have hk : j / 8 < 25 := by omega
  rw [BitVec.getLsbD_xor, getLsbD_stateByte _ _ _ hbit, getLsbD_stateByte _ _ _ hbit, absorbBlock, lane_ofFn _ hk]
  by_cases hrate : j / 8 < 17
  case pos =>
    have hj' : 8 * (j / 8) + j % 8 = j := by omega
    have hmod : j % 8 < 8 := Nat.mod_lt j (by decide)
    rw [if_pos hrate, BitVec.getLsbD_xor, getLsbD_leLane _ hmod hbit, List.getElem?_take_of_lt hmod, List.getElem?_drop,
      hj']
  case neg =>
    have hnone : block[j]? = none := List.getElem?_eq_none (by omega)
    rw [if_neg hrate, hnone]
    simp

/-- Byte `j` of a block of the padded message is the byte position `j` of its window receives. -/
theorem getElem?_block {m : List Byte} {w : Nat} (hw : w < windowCount m.length) (j : Nat) :
    (((paddedMessage m).drop (136 * w)).take 136)[j]? = if j < 136 then some (paddedByte m (136 * w + j)) else none := by
  rw [List.getElem?_take, List.getElem?_drop, paddedMessage_eq_map]
  split
  case isTrue hj => rw [List.getElem?_map, List.getElem?_range (by omega), Option.map_some]
  case isFalse => rfl

theorem length_block {m : List Byte} {w : Nat} (hw : w < windowCount m.length) :
    (((paddedMessage m).drop (136 * w)).take 136).length = 136 := by
  rw [List.length_take, List.length_drop, length_paddedMessage]
  omega

/-- A window's 136 byte XORs are its block's 17 lane XORs (R127). -/
theorem absorbPositions_eq_absorbBlock {m : List Byte} {w : Nat} (hw : w < windowCount m.length) (S : Lanes) :
    absorbPositions m w 136 S = absorbBlock (((paddedMessage m).drop (136 * w)).take 136) S :=
  lanes_ext_bytes fun j hj => by
    rw [stateByte_absorbPositions m w 136 S hj, stateByte_absorbBlock (length_block hw) S hj, getElem?_block hw]
    split
    case isTrue => rfl
    case isFalse => rfl

theorem absorbWindows_eq_blockState (f : Lanes → Lanes) (m : List Byte) {n : Nat} (hn : n ≤ windowCount m.length) :
    absorbWindows f m n = blockState f (paddedMessage m) n := by
  induction n with
  | zero => rfl
  | succ n ih => rw [absorbWindows, blockState, ih (by omega), absorbPositions_eq_absorbBlock hn]

/-- Settles O49, window by window. -/
theorem blockFormGivesTheSameDigest : Obligations.BlockFormGivesTheSameDigest := by
  intro f m
  refine ⟨fun w S hw => absorbPositions_eq_absorbBlock hw S, ?_⟩
  rw [keccak256, absorbWindows_eq_blockState f m le_rfl]

end Sys2Proof.Machine
end
